-- ==== Sys2Proof/Word.lean ====
section
/-!
DEFINITION. The bit-vector types of WCFE: bytes, u16 and u32 values (00_scope.md R8, 10_state.md R21).
-/
namespace Sys2Proof

/-- A byte: a buffer byte, a frame byte, an 8-bit register. -/
abbrev Byte := BitVec 8

/-- A u16: a 16-bit register or frame field. -/
abbrev Half := BitVec 16

/-- A u32 or the bit pattern of an f32: register VAL (10_state.md R23). -/
abbrev Word := BitVec 32

end Sys2Proof
end

