-- ==== Sys2Proof/Syntax.lean ====
section
/-!
DEFINITION. The instructions of WCFE, one constructor per row of the opcode table. WCFE has two encoding layers
(30_encoding.md): the byte the host writes to CMD (R70 to R72) and the function code at byte 7 of a Modbus TCP frame
(R84). Rows of the first layer are commands; rows of the second are what VALIDATE meets at byte 7 of a response.
-/
namespace Sys2Proof

/-- The rows of the opcode table. A command has no operand fields (R70): its operands are the registers and buffers
its rule names (R74). The two constructors that stand for many bytes carry the byte. -/
inductive Instr where
  /-- ENC16, opcode 0x01: encode a u16 (R105). -/
  | enc16
  /-- ENC32, opcode 0x02: encode a u32 (R106). -/
  | enc32
  /-- ENCF32, opcode 0x03: encode an f32 (R107). -/
  | encf32
  /-- DEC16, opcode 0x04: decode a u16 (R108). -/
  | dec16
  /-- DEC32, opcode 0x05: decode a u32 (R110). -/
  | dec32
  /-- DECF32, opcode 0x06: decode an f32 (R111). -/
  | decf32
  /-- BUILDRD, opcode 0x10: build a read-multiple-registers request (R120). -/
  | buildrd
  /-- BUILDWR, opcode 0x11: build a write-multiple-registers request (R124). -/
  | buildwr
  /-- VALIDATE, opcode 0x20: validate the response frame in RXB (R140). -/
  | validate
  /-- TIDNEXT, opcode 0x30: take the next transaction id (R170). -/
  | tidnext
  /-- BAD_COMMAND: one of the 246 reserved opcodes (R72, R190). -/
  | badCommand (opcode : Byte)
  /-- FC_READ_MULTIPLE_REGISTERS: 0x03 at byte 7 of a frame (R76, R78, R84). -/
  | fcReadMultipleRegisters
  /-- FC_WRITE_MULTIPLE_REGISTERS: 0x10 at byte 7 of a frame (R77, R79, R84). -/
  | fcWriteMultipleRegisters
  /-- FC_EXCEPTION_READ: 0x83 at byte 7 of a frame (R80, R84, R143). -/
  | fcExceptionRead
  /-- FC_EXCEPTION_WRITE: 0x90 at byte 7 of a frame (R80, R84, R143). -/
  | fcExceptionWrite
  /-- FC_OTHER: any other byte at byte 7 of a frame (R84, R144). -/
  | fcOther (code : Byte)
  deriving DecidableEq, Repr

end Sys2Proof
end

