-- ==== Sys2Proof/WellFormed.lean ====
section
/-!
DEFINITION. When an instruction term is one the encoding can hold: the byte of BAD_COMMAND is a reserved opcode
(30_encoding.md R72), and the byte of FC_OTHER is none of the four function codes of R84.
-/
namespace Sys2Proof

/-- The reserved opcodes, as R72 lists them: 0x00, 0x07 to 0x0F, 0x12 to 0x1F, 0x21 to 0x2F, 0x31 to 0xFF. -/
def reservedOpcode (b : Byte) : Bool :=
  b.toNat == 0x00 ||
  (decide (0x07 ≤ b.toNat) && decide (b.toNat ≤ 0x0F)) ||
  (decide (0x12 ≤ b.toNat) && decide (b.toNat ≤ 0x1F)) ||
  (decide (0x21 ≤ b.toNat) && decide (b.toNat ≤ 0x2F)) ||
  decide (0x31 ≤ b.toNat)

/-- The function-code values R84 names: 0x03, 0x10, 0x83, 0x90. -/
def namedFunctionCode (b : Byte) : Bool :=
  b == 0x03#8 || b == 0x10#8 || b == 0x83#8 || b == 0x90#8

/-- Well-formed instructions: the ones some byte of their layer decodes to. -/
def Instr.wf : Instr → Bool
  | .enc16 => true
  | .enc32 => true
  | .encf32 => true
  | .dec16 => true
  | .dec32 => true
  | .decf32 => true
  | .buildrd => true
  | .buildwr => true
  | .validate => true
  | .tidnext => true
  | .badCommand opcode => reservedOpcode opcode
  | .fcReadMultipleRegisters => true
  | .fcWriteMultipleRegisters => true
  | .fcExceptionRead => true
  | .fcExceptionWrite => true
  | .fcOther code => !namedFunctionCode code

end Sys2Proof
end

