-- ==== Sys2Proof/Decode.lean ====
section
/-!
DEFINITION. Decoding and encoding. A command is exactly one byte (30_encoding.md R70), matched on all eight bits
against the map of R71; every other byte is BAD_COMMAND (R72). The function code of a frame is one byte too, matched
against the map of R84. The two maps are separate layers: opcode 0x03 is ENCF32 and function code 0x03 is read multiple
registers, and the two never meet (R73).
-/
namespace Sys2Proof

/-- The two encoding layers of 30_encoding.md. -/
inductive Layer where
  /-- A byte the host writes to CMD (R70). -/
  | command
  /-- Byte 7 of a Modbus TCP frame (R84). -/
  | wire
  deriving DecidableEq, Repr

/-- Why bytes do not decode: there is no byte to read. Every byte there is decodes (R71, R72, R84). -/
inductive DecodeError where
  /-- The byte list is empty. Raised by decode; safe, since no instruction is made up. -/
  | noByte
  deriving DecidableEq, Repr

/-- The command opcode map, R71. -/
def commandMap : List (Byte × Instr) :=
  [(0x01#8, .enc16), (0x02#8, .enc32), (0x03#8, .encf32),
   (0x04#8, .dec16), (0x05#8, .dec32), (0x06#8, .decf32),
   (0x10#8, .buildrd), (0x11#8, .buildwr),
   (0x20#8, .validate),
   (0x30#8, .tidnext)]

/-- The function-code map, R84. -/
def functionCodeMap : List (Byte × Instr) :=
  [(0x03#8, .fcReadMultipleRegisters), (0x10#8, .fcWriteMultipleRegisters),
   (0x83#8, .fcExceptionRead), (0x90#8, .fcExceptionWrite)]

/-- The command whose opcode is b: R71's row, or BAD_COMMAND (R32, R72). -/
def decodeCommand (b : Byte) : Instr :=
  (commandMap.lookup b).getD (.badCommand b)

/-- The function-code row of byte b at offset 7 of a frame (R84). -/
def decodeFunctionCode (b : Byte) : Instr :=
  (functionCodeMap.lookup b).getD (.fcOther b)

/-- The instruction of one byte in one layer. -/
def decodeByte : Layer → Byte → Instr
  | .command, b => decodeCommand b
  | .wire, b => decodeFunctionCode b

/-- Decode the first byte of a list, and give back the rest: every instruction has length 1, and a decoder never
looks past the one byte (R70). -/
def decode (l : Layer) : List Byte → Except DecodeError (Instr × List Byte)
  | [] => .error .noByte
  | b :: rest => .ok (decodeByte l b, rest)

/-- The layer an instruction belongs to. -/
def layerOf : Instr → Layer
  | .enc16 => .command
  | .enc32 => .command
  | .encf32 => .command
  | .dec16 => .command
  | .dec32 => .command
  | .decf32 => .command
  | .buildrd => .command
  | .buildwr => .command
  | .validate => .command
  | .tidnext => .command
  | .badCommand _ => .command
  | .fcReadMultipleRegisters => .wire
  | .fcWriteMultipleRegisters => .wire
  | .fcExceptionRead => .wire
  | .fcExceptionWrite => .wire
  | .fcOther _ => .wire

/-- The byte of an instruction in its layer (R71, R84). -/
def encodeByte : Instr → Byte
  | .enc16 => 0x01#8
  | .enc32 => 0x02#8
  | .encf32 => 0x03#8
  | .dec16 => 0x04#8
  | .dec32 => 0x05#8
  | .decf32 => 0x06#8
  | .buildrd => 0x10#8
  | .buildwr => 0x11#8
  | .validate => 0x20#8
  | .tidnext => 0x30#8
  | .badCommand opcode => opcode
  | .fcReadMultipleRegisters => 0x03#8
  | .fcWriteMultipleRegisters => 0x10#8
  | .fcExceptionRead => 0x83#8
  | .fcExceptionWrite => 0x90#8
  | .fcOther code => code

/-- The bytes of an instruction: exactly one (R70). -/
def encode (i : Instr) : List Byte := [encodeByte i]

/-- The first byte of an instruction whose bits are w, of which the low nbits are given and the rest are zero. -/
def tableByte (nbits w : Nat) : Byte := BitVec.ofNat 8 (w % 2 ^ nbits)

/-- The host's question about a row of the opcode table: what the decoder of CMD bytes reads from it. A byte handed to
step is a CMD byte, so the wire layer's rows are not what this gives (R73; log 1). -/
def decodeTableWord (nbits w : Nat) : Option Instr :=
  match decode .command [tableByte nbits w] with
  | .ok (i, _) => some i
  | .error _ => none

end Sys2Proof
end

