-- ==== Sys2Proof/Config.lean ====
section
/-!
DEFINITION. What an instance of WCFE fixes (00_scope.md R6, R7), and the free values of host reads (10_state.md R45,
20_memory.md R61). The three parameters are OPEN in the spec: they are opaque here, so that no proof can see their
values. Log 6 and 7.
-/
namespace Sys2Proof

/-- A byte order (R6, R102). -/
inductive Endian where
  /-- Most significant byte at the lowest address. -/
  | big
  /-- Least significant byte at the lowest address. -/
  | little
  deriving DecidableEq, Repr, Inhabited

/-- The three byte buffers (20_memory.md R50). -/
inductive Buffer where
  /-- TXB, the request buffer (R51). -/
  | txb
  /-- RXB, the response buffer (R52). -/
  | rxb
  /-- WDB, the write-data buffer (R53). -/
  | wdb
  deriving DecidableEq, Repr

/-- The three parameters of an instance (R6). -/
structure Params where
  /-- HOST_ENDIAN. -/
  hostEndian : Endian
  /-- TID_INIT. -/
  tidInit : Half
  /-- RX_CAP, at least 264 (an invariant of the model states the bound). -/
  rxCap : Nat
  deriving DecidableEq, Repr

/-- HOST_ENDIAN, open (R6, D6). -/
opaque Config.hostEndian : Endian

/-- TID_INIT, open (R6, D5). -/
opaque Config.tidInit : Half

/-- How much RX_CAP exceeds its minimum 264, open (R6, D18). -/
opaque Config.rxCapExcess : Nat

/-- RX_CAP: a number at least 264 of which nothing more is known (R6). -/
def Config.rxCap : Nat := Config.rxCapExcess + 264

/-- The parameters of the instance that State.reset creates. -/
def Config.params : Params :=
  { hostEndian := Config.hostEndian, tidInit := Config.tidInit, rxCap := Config.rxCap }

/-- TXB capacity, 267 bytes (R7, R50). -/
def Config.txbCapacity : Nat := 267

/-- WDB capacity, 254 bytes (R7, R50). -/
def Config.wdbCapacity : Nat := 254

/-- The capacity of a buffer in an instance with these parameters (R50). -/
def Buffer.capacity (p : Params) : Buffer → Nat
  | .txb => Config.txbCapacity
  | .rxb => p.rxCap
  | .wdb => Config.wdbCapacity

/-- Free value: what a host read of the unwritten register with this number returns, of which a register takes its
width (R45). The same at every repeat within an instance (R58); the seed stands for the instance. Log 6. -/
opaque Config.unwrittenReg (seed : Nat) (number : Byte) : Word

/-- Free value: what a host read of an unwritten buffer byte returns (R61). Log 6. -/
opaque Config.unwrittenByte (seed : Nat) (b : Buffer) (a : Nat) : Byte

end Sys2Proof
end

