-- ==== Sys2Proof/Machine/State.lean ====
section
/-!
DEFINITION. The state of WCFE (10_state.md, 20_memory.md R50, 60_exceptions.md R196), as plain data, and its reset
(10_state.md R47, 70_reset_and_hazards.md R210). INVENTORY.md lists every field with its rule.
-/
namespace Sys2Proof.Machine

/-- A byte buffer: the written bytes as (address, byte) pairs with strictly rising addresses. An address that is not
listed is a byte whose written flag is clear (R43), and it holds no value (log 5). -/
abbrev Memory := List Host.Cell

/-- A register with a written flag (R43): its value, and whether anything has written it since reset. -/
structure OperandReg (w : Nat) where
  /-- The value, meaningful once written. -/
  value : BitVec w
  /-- The hidden written flag. -/
  written : Bool
  deriving DecidableEq, Repr

/-- A register with a written flag, right after a write of v. -/
def OperandReg.of {w : Nat} (v : BitVec w) : OperandReg w := { value := v, written := true }

/-- A register with a written flag at reset: flag clear (R47). The value 0 is a DESIGN CHOICE that nothing reads
(log 4): a command faults on the clear flag, and a host read is a free draw. -/
def OperandReg.unwritten (w : Nat) : OperandReg w := { value := 0#w, written := false }

/-- The hidden endianness cache ENDC (R42). -/
inductive Endc where
  | unknown
  | big
  | little
  deriving DecidableEq, Repr

/-- The register names of R21. -/
inductive RegName where
  | cmd
  | status
  | excode
  | ctrl
  | val
  | wb0
  | wb1
  | wb2
  | wb3
  | tidin
  | unit
  | start
  | count
  | efc
  | rxlen
  | txlen
  | expsize
  | payoff
  | paylen
  | tidctr
  | desync
  deriving DecidableEq, Repr

/-- What a command found unwritten: the second argument of Fault(UNWRITTEN, what) (R196). -/
inductive Place where
  /-- A register. -/
  | reg (r : RegName)
  /-- A byte of a buffer. -/
  | byte (b : Buffer) (a : Nat)
  deriving DecidableEq, Repr

/-- The FAULTED mark (R196): the command that raised Fault(UNWRITTEN) and what it found unwritten. -/
structure FaultMark where
  /-- The command. -/
  command : Instr
  /-- The register or byte. -/
  what : Place
  deriving DecidableEq, Repr

/-- The host's four actions (20_memory.md R61). A register is named by its number; a value is given in 32 bits and
must fit the register's width (R44; log 9). -/
inductive HostAction where
  /-- HostWriteReg(r, v). -/
  | writeReg (r : Byte) (v : Word)
  /-- HostReadReg(r). -/
  | readReg (r : Byte)
  /-- HostWriteBuf(S, a, b). -/
  | writeBuf (b : Buffer) (a : Nat) (v : Byte)
  /-- HostReadBuf(S, a). -/
  | readBuf (b : Buffer) (a : Nat)
  deriving DecidableEq, Repr

/-- Why a step has no next state because an address does not exist. -/
inductive Fault where
  /-- Raised by hostWriteBuf and hostReadBuf when the host addresses a byte at or above the buffer's capacity. The
  spec gives such an action no move (R61). Safe: the model stops where the spec assumes nothing happens. -/
  | outsideBuffer (b : Buffer) (a : Nat)
  deriving DecidableEq, Repr

/-- Why a step is refused. -/
inductive Refusal where
  /-- Raised by an arm of exec for an instruction without a meaning. Safe. No arm uses it. -/
  | notModelled (mnemonic : String)
  /-- Raised by hostWriteBuf when the host writes TXB, which the spec gives no move (R61, R67). Safe. -/
  | hostWriteTxb (a : Nat)
  /-- Raised by hostWriteReg when the value does not fit the register's width: the host supplies a value at the
  register's width (R44). Safe (log 9). -/
  | hostValueTooWide (r : RegName)
  deriving DecidableEq, Repr

/-- The machine. -/
structure State where
  /-- STATUS (R33). -/
  status : Byte
  /-- EXCODE (R34). -/
  excode : Byte
  /-- CTRL; bit 0 is TIDCHK, bits 7:1 are always 0 (R31). -/
  ctrl : Byte
  /-- VAL (R23). -/
  val : OperandReg 32
  /-- WB0, first on the wire (R24). -/
  wb0 : OperandReg 8
  /-- WB1 (R24). -/
  wb1 : OperandReg 8
  /-- WB2 (R24). -/
  wb2 : OperandReg 8
  /-- WB3 (R24). -/
  wb3 : OperandReg 8
  /-- TIDIN (R25). -/
  tidin : OperandReg 16
  /-- UNIT (R26). -/
  unit : OperandReg 8
  /-- START (R27). -/
  start : OperandReg 16
  /-- COUNT (R28). -/
  count : OperandReg 8
  /-- EFC (R29). -/
  efc : OperandReg 8
  /-- RXLEN (R30). -/
  rxlen : OperandReg 16
  /-- TXLEN (R35). -/
  txlen : Half
  /-- EXPSIZE (R36). -/
  expsize : Half
  /-- PAYOFF (R37). -/
  payoff : Half
  /-- PAYLEN (R38). -/
  paylen : Half
  /-- TIDCTR (R39). -/
  tidctr : Half
  /-- DESYNC; bit 0 is LATCH, bits 7:1 are always 0 (R40). -/
  desync : Byte
  /-- ENDC (R42). -/
  endc : Endc
  /-- TXB (R51). -/
  txb : Memory
  /-- RXB (R52). -/
  rxb : Memory
  /-- WDB (R53). -/
  wdb : Memory
  /-- The FAULTED mark (R196). -/
  faulted : Option FaultMark
  /-- The instance's parameters (R6); no step changes them. -/
  params : Params
  /-- The model's own: the actions the host still makes, oldest first (R61, R62; log 2). -/
  pending : List HostAction
  /-- The model's own: what the latest host read returned (R45, R61; log 8). -/
  lastRead : Option Word
  /-- The model's own: names the draw of the free values of host reads (log 6). -/
  drawSeed : Nat
  deriving DecidableEq, Repr

/-- A new instance with the given parameters: every field at the value of R47 (R210). -/
def State.resetWith (p : Params) : State :=
  { status := 0x00#8
    excode := 0x00#8
    ctrl := 0x01#8
    val := OperandReg.unwritten 32
    wb0 := OperandReg.unwritten 8
    wb1 := OperandReg.unwritten 8
    wb2 := OperandReg.unwritten 8
    wb3 := OperandReg.unwritten 8
    tidin := OperandReg.unwritten 16
    unit := OperandReg.unwritten 8
    start := OperandReg.unwritten 16
    count := OperandReg.unwritten 8
    efc := OperandReg.unwritten 8
    rxlen := OperandReg.unwritten 16
    txlen := 0x0000#16
    expsize := 0x0000#16
    payoff := 0x0000#16
    paylen := 0x0000#16
    tidctr := p.tidInit
    desync := 0x00#8
    endc := .unknown
    txb := []
    rxb := []
    wdb := []
    faulted := none
    params := p
    pending := []
    lastRead := none
    drawSeed := 0 }

/-- The machine right after reset, with the open parameters of Config. -/
def State.reset : State := State.resetWith Config.params

end Sys2Proof.Machine
end

