-- ==== Sys2Proof/Machine/Flags.lean ====
section
/-!
DEFINITION. Status codes, their tiers and fatality, the STATUS byte, and the fields of STATUS, CTRL and DESYNC
(60_exceptions.md R181, R182; 10_state.md R31, R33, R40). These are WCFE's flags: it has no others.
-/
namespace Sys2Proof.Machine

/-- The status codes of R181. Codes 11 to 15 are reserved and have no name. -/
inductive StatusCode where
  | ok
  | encodingError
  | frameTruncated
  | unexpectedFunctionCode
  | lengthMismatch
  | sizeMismatch
  | transactionMismatch
  | deviceException
  /-- Never produced by WCFE: kept for the host's composite result (R197). -/
  | transportError
  | badCommand
  | badArgument
  deriving DecidableEq, Repr

/-- CODE, bits 3:0 of STATUS (R181). -/
def codeOf : StatusCode → BitVec 4
  | .ok => 0#4
  | .encodingError => 1#4
  | .frameTruncated => 2#4
  | .unexpectedFunctionCode => 3#4
  | .lengthMismatch => 4#4
  | .sizeMismatch => 5#4
  | .transactionMismatch => 6#4
  | .deviceException => 7#4
  | .transportError => 8#4
  | .badCommand => 9#4
  | .badArgument => 10#4

/-- TIER, bits 5:4 of STATUS: 0 NONE, 1 TRANSPORT, 2 PROTOCOL, 3 LOCAL (R182). -/
def tierOf : StatusCode → BitVec 2
  | .ok => 0#2
  | .encodingError => 3#2
  | .frameTruncated => 2#2
  | .unexpectedFunctionCode => 2#2
  | .lengthMismatch => 2#2
  | .sizeMismatch => 2#2
  | .transactionMismatch => 2#2
  | .deviceException => 2#2
  | .transportError => 1#2
  | .badCommand => 3#2
  | .badArgument => 3#2

/-- FATAL, bit 6 of STATUS: the connection should be abandoned (R182). -/
def fatalOf : StatusCode → Bool
  | .ok => false
  | .encodingError => false
  | .frameTruncated => true
  | .unexpectedFunctionCode => true
  | .lengthMismatch => true
  | .sizeMismatch => true
  | .transactionMismatch => true
  | .deviceException => false
  | .transportError => true
  | .badCommand => false
  | .badArgument => false

/-- The STATUS byte of a code: 0 ‖ FATAL ‖ TIER ‖ CODE (R182, R183). -/
def statusByte (c : StatusCode) : Byte :=
  0#1 ++ BitVec.ofBool (fatalOf c) ++ tierOf c ++ codeOf c

/-- STATUS.CODE (R33). -/
def statusCodeField (status : Byte) : BitVec 4 := status.extractLsb' 0 4

/-- STATUS.TIER (R33). -/
def statusTierField (status : Byte) : BitVec 2 := status.extractLsb' 4 2

/-- STATUS.FATAL (R33). -/
def statusFatalField (status : Byte) : Bool := status.getLsbD 6

/-- CTRL.TIDCHK (R31). -/
def tidchk (ctrl : Byte) : Bool := ctrl.getLsbD 0

/-- What CTRL holds after a write of v: bits 7:1 of v are ignored (R31, R44). -/
def ctrlWritten (v : Byte) : Byte := v &&& 0x01#8

/-- DESYNC.LATCH (R40). -/
def desyncLatch (desync : Byte) : Bool := desync.getLsbD 0

/-- DESYNC after a command ends with code c: LATCH is set by a fatal code and never cleared (R40, R183). -/
def desyncAfter (c : StatusCode) (desync : Byte) : Byte :=
  if fatalOf c then desync ||| 0x01#8 else desync

end Sys2Proof.Machine
end

