-- ==== Sys2Proof/Machine/Ops.lean ====
section
/-!
DEFINITION. The named operations over memory and state that every command is made of: buffer bytes, byte order,
finish, Fault(UNWRITTEN), and how a command ends (00_scope.md R11, R12; 60_exceptions.md R183, R196).
-/
namespace Sys2Proof.Machine

/-! ### Buffers -/

/-- The byte at address a, or none where its written flag is clear (R43). -/
def Memory.read : Memory → Nat → Option Byte
  | [], _ => none
  | (k, v) :: rest, a => if k = a then some v else Memory.read rest a

/-- Store one byte and set its written flag (R43, R61). Keeps the addresses rising. -/
def Memory.write : Memory → Nat → Byte → Memory
  | [], a, b => [(a, b)]
  | (k, v) :: rest, a, b =>
    if a < k then (a, b) :: (k, v) :: rest
    else if k = a then (a, b) :: rest
    else (k, v) :: Memory.write rest a b

/-- Store bytes at a, a+1, and so on: MemWrite as single-byte accesses (R57). -/
def Memory.writeBytes : Memory → Nat → List Byte → Memory
  | m, _, [] => m
  | m, a, b :: bs => Memory.writeBytes (Memory.write m a b) (a + 1) bs

/-- Every address is at least lo, and addresses strictly rise. -/
def Memory.risingFrom : Nat → Memory → Bool
  | _, [] => true
  | lo, (k, _) :: rest => decide (lo ≤ k) && Memory.risingFrom (k + 1) rest

/-- The canonical form of a buffer: addresses strictly rise. An unlisted address holds no value, so no entry can repeat
what an unlisted address reads as. -/
def Memory.wf (m : Memory) : Bool := Memory.risingFrom 0 m

/-- Every listed address is below the capacity (R50). -/
def Memory.within (capacity : Nat) (m : Memory) : Bool := m.all (fun cell => decide (cell.1 < capacity))

/-- The contents of a buffer. -/
def bufferOf (b : Buffer) (s : State) : Memory :=
  match b with
  | .txb => s.txb
  | .rxb => s.rxb
  | .wdb => s.wdb

/-! ### Byte order (R9, R54) -/

/-- The two bytes of a u16, most significant first. -/
def be16 (v : Half) : List Byte := [v.extractLsb' 8 8, v.extractLsb' 0 8]

/-- The four bytes of a u32, most significant first. -/
def be32 (v : Word) : List Byte :=
  [v.extractLsb' 24 8, v.extractLsb' 16 8, v.extractLsb' 8 8, v.extractLsb' 0 8]

/-- BE16(b0, b1) = b0 ‖ b1 (R9). -/
def joinBE16 (b0 b1 : Byte) : Half := b0 ++ b1

/-- BE32(b0, b1, b2, b3) = b0 ‖ b1 ‖ b2 ‖ b3 (R9). -/
def joinBE32 (b0 b1 b2 b3 : Byte) : Word := b0 ++ b1 ++ b2 ++ b3

/-! ### Modbus function codes (R2, R84) -/

/-- Function code 3, read multiple registers. -/
abbrev functionCodeRead : Byte := 0x03#8

/-- Function code 16, write multiple registers. -/
abbrev functionCodeWrite : Byte := 0x10#8

/-- The exception function code of a request's function code (R80). -/
abbrev exceptionFunctionCode (fc : Byte) : Byte := fc ||| 0x80#8

/-- The largest register count (R7). -/
abbrev maxCount : Nat := 127

/-! ### How a command ends -/

/-- finish(CODE): STATUS takes the code's byte, and a fatal code sets DESYNC.LATCH (R183). -/
def finish (c : StatusCode) (s : State) : State :=
  { s with status := statusByte c, desync := desyncAfter c s.desync }

/-- raise Fault(UNWRITTEN, what): the command writes nothing, and the FAULTED mark names the command and what it found
unwritten (R196). This is the only exception WCFE has (R180, R192). -/
def raiseUnwritten (i : Instr) (what : Place) (s : State) : State :=
  { s with faulted := some { command := i, what := what } }

/-- The end of command i on state s: all of its writes at once (R46), or the fault of its first unwritten read, which
discards every write (R12, R196). -/
def commit (i : Instr) (s : State) (body : Except Place State) : Host.Outcome State Fault Refusal :=
  match body with
  | .ok t => .next t
  | .error what => .next (raiseUnwritten i what s)

/-! ### The host's side of the state -/

/-- The state with the host's first action taken, rest being what the host still does (20_memory.md R62). -/
def takeAction (rest : List HostAction) (s : State) : State := { s with pending := rest }

/-- The host has been handed the value x: the only trace of a read (10_state.md R45, 20_memory.md R58). -/
def handHost (x : Word) (s : State) : State := { s with lastRead := some x }

/-- The host has stored a byte in RXB (20_memory.md R61). -/
def storeRxb (a : Nat) (v : Byte) (s : State) : State := { s with rxb := Memory.write s.rxb a v }

/-- The host has stored a byte in WDB (20_memory.md R61). -/
def storeWdb (a : Nat) (v : Byte) (s : State) : State := { s with wdb := Memory.write s.wdb a v }

end Sys2Proof.Machine
end

