-- ==== Sys2Proof/Machine/Operands.lean ====
section
/-!
DEFINITION. Every operand form of 30_encoding.md R74: a register with a written flag, the wire lanes WB0 to WB3, and
bytes of a buffer. A read of an unwritten register or byte stops the command at that read (10_state.md R43,
60_exceptions.md R196).
-/
namespace Sys2Proof.Machine

/-- Read a register with a written flag. -/
def readReg {w : Nat} (name : RegName) (r : OperandReg w) : Except Place (BitVec w) :=
  if r.written then .ok r.value else .error (.reg name)

/-- Read VAL. -/
def readVal (s : State) : Except Place Word := readReg .val s.val

/-- Write VAL (R23). -/
def writeVal (v : Word) (s : State) : State := { s with val := OperandReg.of v }

/-- Read WB0 and WB1, WB0 first (R108). -/
def readLanes2 (s : State) : Except Place (List Byte) := do
  let b0 ← readReg .wb0 s.wb0
  let b1 ← readReg .wb1 s.wb1
  return [b0, b1]

/-- Read WB0 to WB3, WB0 first, so that a fault names the lowest unwritten lane (R110). -/
def readLanes4 (s : State) : Except Place (List Byte) := do
  let b0 ← readReg .wb0 s.wb0
  let b1 ← readReg .wb1 s.wb1
  let b2 ← readReg .wb2 s.wb2
  let b3 ← readReg .wb3 s.wb3
  return [b0, b1, b2, b3]

/-- What lane k holds after wire bytes are written to the lanes: byte k, or what it held where there is none. -/
def laneAfter (wire : List Byte) (k : Nat) (old : OperandReg 8) : OperandReg 8 :=
  match wire[k]? with
  | some b => OperandReg.of b
  | none => old

/-- Write wire bytes to WB0 upward, the first byte on the wire to WB0 (R24). -/
def writeLanes (wire : List Byte) (s : State) : State :=
  { s with
    wb0 := laneAfter wire 0 s.wb0
    wb1 := laneAfter wire 1 s.wb1
    wb2 := laneAfter wire 2 s.wb2
    wb3 := laneAfter wire 3 s.wb3 }

/-- The four register operands of a request. -/
structure RequestOperands where
  /-- x[TIDIN]. -/
  tid : Half
  /-- x[UNIT]. -/
  unit : Byte
  /-- x[START]. -/
  start : Half
  /-- x[COUNT]. -/
  count : Byte
  deriving DecidableEq, Repr

/-- Read TIDIN, UNIT, START and COUNT, in that order (R120, R124, R188). -/
def readRequestOperands (s : State) : Except Place RequestOperands := do
  let tid ← readReg .tidin s.tidin
  let unit ← readReg .unit s.unit
  let start ← readReg .start s.start
  let count ← readReg .count s.count
  return { tid := tid, unit := unit, start := start, count := count }

/-- Read one byte of a buffer (R57). -/
def readByte (b : Buffer) (a : Nat) (s : State) : Except Place Byte :=
  match (bufferOf b s).read a with
  | some v => .ok v
  | none => .error (.byte b a)

/-- MemRead(S, a, 2): bytes a and a+1, in that order, combined big-endian (R11, R57). -/
def readHalf (b : Buffer) (a : Nat) (s : State) : Except Place Half := do
  let b0 ← readByte b a s
  let b1 ← readByte b (a + 1) s
  return joinBE16 b0 b1

/-- Read n bytes from a upward. -/
def readBytes (b : Buffer) : Nat → Nat → State → Except Place (List Byte)
  | _, 0, _ => .ok []
  | a, n + 1, s => do
    let v ← readByte b a s
    let rest ← readBytes b (a + 1) n s
    return v :: rest

end Sys2Proof.Machine
end

