-- ==== Sys2Proof/Machine/Build.lean ====
section
/-!
DEFINITION. The request-building commands BUILDRD and BUILDWR (41_frame_build.md), and the request frames they write
(30_encoding.md R75 to R77, R81 to R83).
-/
namespace Sys2Proof.Machine

/-- The 7-byte MBAP header of a request: transaction id, protocol id 0, length, unit id (R75). -/
def mbapHeader (tid length : Half) (unit : Byte) : List Byte :=
  be16 tid ++ be16 0x0000#16 ++ be16 length ++ [unit]

/-- The read-multiple-registers request, 12 bytes (R76). -/
def readRequestFrame (o : RequestOperands) : List Byte :=
  mbapHeader o.tid 0x0006#16 o.unit ++ [functionCodeRead] ++ be16 o.start ++ be16 (o.count.setWidth 16)

/-- The write-multiple-registers request, 13 bytes and the data (R77). The count c gives the length 7 + 2c (R126) and
the byte count 2c (R83). -/
def writeRequestFrame (o : RequestOperands) (data : List Byte) : List Byte :=
  mbapHeader o.tid (BitVec.ofNat 16 (7 + 2 * o.count.toNat)) o.unit ++ [functionCodeWrite] ++ be16 o.start ++
    be16 (o.count.setWidth 16) ++ [BitVec.ofNat 8 (2 * o.count.toNat)] ++ data

/-- The count rejection of both builds: TXLEN and EXPSIZE 0, TXB as it was, ENCODING_ERROR (R121). -/
def rejectCount (s : State) : State :=
  finish .encodingError { s with txlen := 0x0000#16, expsize := 0x0000#16 }

/-- An accepted build: the frame at TXB[0] upward, TXLEN, EXPSIZE, OK (R120, R124). -/
def emitRequest (frame : List Byte) (txlen expsize : Half) (s : State) : State :=
  finish .ok { s with txb := Memory.writeBytes s.txb 0 frame, txlen := txlen, expsize := expsize }

/-- BUILDRD up to its end (R120). The expected response size is 9 + 2c (R123). -/
def buildReadBody (s : State) : Except Place State := do
  let o ← readRequestOperands s
  if maxCount < o.count.toNat then
    return rejectCount s
  else
    return emitRequest (readRequestFrame o) 12#16 (BitVec.ofNat 16 (9 + 2 * o.count.toNat)) s

/-- BUILDWR up to its end (R124). The data are WDB[0] to WDB[2c-1] (R125); the expected response size is 12 (R127). -/
def buildWriteBody (s : State) : Except Place State := do
  let o ← readRequestOperands s
  if maxCount < o.count.toNat then
    return rejectCount s
  else do
    let data ← readBytes .wdb 0 (2 * o.count.toNat) s
    return emitRequest (writeRequestFrame o data) (BitVec.ofNat 16 (13 + 2 * o.count.toNat)) 12#16 s

/-- BUILDRD (R120). -/
def execBuildrd (s : State) : Host.Outcome State Fault Refusal := commit .buildrd s (buildReadBody s)

/-- BUILDWR (R124). -/
def execBuildwr (s : State) : Host.Outcome State Fault Refusal := commit .buildwr s (buildWriteBody s)

end Sys2Proof.Machine
end

