-- ==== Sys2Proof/Machine/Codec.lean ====
section
/-!
DEFINITION. The wire codec commands (40_wire_codec.md): ENC16, ENC32, ENCF32, DEC16, DEC32, DECF32. They run the
mechanism of R101 to R103, host image and reversal included; that no result depends on the host's byte order (R104) is
something to prove, not something built in.
-/
namespace Sys2Proof.Machine

/-- The host byte order a codec command works with: ENDC where it is known, else HOST_ENDIAN (R101). -/
def codecEndian (s : State) : Endian :=
  match s.endc with
  | .unknown => s.params.hostEndian
  | .big => .big
  | .little => .little

/-- ENDC as a cached byte order. -/
def cacheOf : Endian → Endc
  | .big => .big
  | .little => .little

/-- The ENDC step of R101: the first codec command after reset caches HOST_ENDIAN. -/
def determineEndian (s : State) : State := { s with endc := cacheOf (codecEndian s) }

/-- HostImage: how a value, given by its big-endian bytes, lies in the memory of a host of byte order e (R102). -/
def hostImage (e : Endian) (bigEndianBytes : List Byte) : List Byte :=
  match e with
  | .big => bigEndianBytes
  | .little => bigEndianBytes.reverse

/-- Reverse the bytes only when the host is little-endian (R103). -/
def reverseIfLittle (e : Endian) (bytes : List Byte) : List Byte :=
  match e with
  | .big => bytes
  | .little => bytes.reverse

/-- Wire(v, 2): the wire bytes of a u16 (R103). -/
def wire16 (e : Endian) (v : Half) : List Byte := reverseIfLittle e (hostImage e (be16 v))

/-- Wire(v, 4): the wire bytes of a u32 or f32 (R103). -/
def wire32 (e : Endian) (v : Word) : List Byte := reverseIfLittle e (hostImage e (be32 v))

/-- The u16 whose bytes, most significant first, are these. -/
def halfOfBytes : List Byte → Half
  | [b0, b1] => joinBE16 b0 b1
  | _ => 0#16

/-- The u32 whose bytes, most significant first, are these. -/
def wordOfBytes : List Byte → Word
  | [b0, b1, b2, b3] => joinBE32 b0 b1 b2 b3
  | _ => 0#32

/-- Value(w, 2): the u16 whose host image is the wire bytes, reversed on a little-endian host (R103). -/
def value16 (e : Endian) (wire : List Byte) : Half := halfOfBytes (hostImage e (reverseIfLittle e wire))

/-- Value(w, 4): the u32 or f32 whose host image is the wire bytes, reversed on a little-endian host (R103). -/
def value32 (e : Endian) (wire : List Byte) : Word := wordOfBytes (hostImage e (reverseIfLittle e wire))

/-- Encode VAL[15:0] to WB0, WB1 (R105). -/
def encode16Body (s : State) : Except Place State := do
  let v ← readVal s
  return finish .ok (writeLanes (wire16 (codecEndian s) (v.extractLsb' 0 16)) (determineEndian s))

/-- Encode VAL to WB0 to WB3 (R106). -/
def encode32Body (s : State) : Except Place State := do
  let v ← readVal s
  return finish .ok (writeLanes (wire32 (codecEndian s) v) (determineEndian s))

/-- Decode WB0, WB1 to VAL, zero-extended (R108). -/
def decode16Body (s : State) : Except Place State := do
  let w ← readLanes2 s
  return finish .ok (writeVal ((value16 (codecEndian s) w).setWidth 32) (determineEndian s))

/-- Decode WB0 to WB3 to VAL (R110). -/
def decode32Body (s : State) : Except Place State := do
  let w ← readLanes4 s
  return finish .ok (writeVal (value32 (codecEndian s) w) (determineEndian s))

/-- ENC16 (R105). -/
def execEnc16 (s : State) : Host.Outcome State Fault Refusal := commit .enc16 s (encode16Body s)

/-- ENC32 (R106). -/
def execEnc32 (s : State) : Host.Outcome State Fault Refusal := commit .enc32 s (encode32Body s)

/-- ENCF32 (R107): the byte permutation of ENC32 on an f32's bit pattern. -/
def execEncf32 (s : State) : Host.Outcome State Fault Refusal := commit .encf32 s (encode32Body s)

/-- DEC16 (R108). -/
def execDec16 (s : State) : Host.Outcome State Fault Refusal := commit .dec16 s (decode16Body s)

/-- DEC32 (R110). -/
def execDec32 (s : State) : Host.Outcome State Fault Refusal := commit .dec32 s (decode32Body s)

/-- DECF32 (R111): the byte permutation of DEC32 to an f32's bit pattern. -/
def execDecf32 (s : State) : Host.Outcome State Fault Refusal := commit .decf32 s (decode32Body s)

end Sys2Proof.Machine
end

