-- ==== Sys2Proof/Machine/Tid.lean ====
section
/-!
DEFINITION. TIDNEXT, the transaction-id counter (43_transaction_id.md), and BAD_COMMAND, the reserved opcodes
(60_exceptions.md R190).
-/
namespace Sys2Proof.Machine

/-- TIDIN takes the counter, and the counter advances modulo 2^16 (R170). -/
def nextTransactionId (s : State) : State :=
  finish .ok { s with tidin := OperandReg.of s.tidctr, tidctr := s.tidctr + 1#16 }

/-- TIDNEXT (R170). It has no error outcome and no fault. -/
def execTidnext (s : State) : Host.Outcome State Fault Refusal := commit .tidnext s (.ok (nextTransactionId s))

/-- BAD_COMMAND (R190): a reserved opcode writes only STATUS. -/
def execBadCommand (opcode : Byte) (s : State) : Host.Outcome State Fault Refusal :=
  commit (.badCommand opcode) s (.ok (finish .badCommand s))

end Sys2Proof.Machine
end

