-- ==== Sys2Proof/Machine/Validate.lean ====
section
/-!
DEFINITION. VALIDATE (42_frame_validate.md) and the wire function codes it dispatches on (30_encoding.md R84). The
function codes are rows of the opcode table; their meaning is the run of VALIDATE on a frame that carries them at
byte 7 (log 1).
-/
namespace Sys2Proof.Machine

/-- fail(C) of R140: EXCODE, PAYOFF and PAYLEN 0, status C. -/
def failValidate (c : StatusCode) (s : State) : State :=
  finish c { s with excode := 0x00#8, payoff := 0x0000#16, paylen := 0x0000#16 }

/-- A device exception: EXCODE takes the frame's byte 8 (R143). -/
def reportException (code : Byte) (s : State) : State :=
  finish .deviceException { s with excode := code, payoff := 0x0000#16, paylen := 0x0000#16 }

/-- Success with a payload slice of RXB (R148). -/
def acceptFrame (off len : Half) (s : State) : State :=
  finish .ok { s with excode := 0x00#8, payoff := off, paylen := len }

/-- Step 6, the transaction id, and success with the given slice (R147, R148). -/
def checkTransaction (off len : Half) (s : State) : Except Place State :=
  if tidchk s.ctrl then do
    let tid ← readReg .tidin s.tidin
    let id ← readHalf .rxb 0 s
    if id = tid then return acceptFrame off len s
    else return failValidate .transactionMismatch s
  else return acceptFrame off len s

/-- Step 5, the size of a read response, then step 6. The slice of a read is [9, 9 + bc) (R146, R148). -/
def checkReadSize (n : Half) (s : State) : Except Place State := do
  let bc ← readByte .rxb 8 s
  if n.toNat = 9 + bc.toNat then checkTransaction 9#16 (bc.setWidth 16) s
  else return failValidate .sizeMismatch s

/-- Step 4, the length, on unbounded integers (R145, D7), then step 5 for a read and step 6. The slice of a write is
[8, n) (R148). -/
def checkLength (efc : Byte) (n : Half) (s : State) : Except Place State := do
  let len ← readHalf .rxb 4 s
  if n.toNat < len.toNat + 6 then return failValidate .lengthMismatch s
  else if efc = functionCodeRead then checkReadSize n s
  else checkTransaction 8#16 (n - 8#16) s

/-- Steps 2 and 3, the dispatch on the function code fc of the frame (R143, R144). -/
def dispatchFunctionCode (efc : Byte) (n : Half) (fc : Byte) (s : State) : Except Place State :=
  if fc = efc then checkLength efc n s
  else if fc = exceptionFunctionCode efc then do
    let code ← readByte .rxb 8 s
    return reportException code s
  else return failValidate .unexpectedFunctionCode s

/-- VALIDATE up to its end, where byte7 is how the frame's function code is had: operands (R140), argument check
(R141), step 1 (R142), then the dispatch. -/
def validateBody (byte7 : Except Place Byte) (s : State) : Except Place State := do
  let efc ← readReg .efc s.efc
  let n ← readReg .rxlen s.rxlen
  if efc ≠ functionCodeRead ∧ efc ≠ functionCodeWrite then return failValidate .badArgument s
  else if s.params.rxCap < n.toNat then return failValidate .badArgument s
  else if n.toNat < 9 then return failValidate .frameTruncated s
  else do
    let fc ← byte7
    dispatchFunctionCode efc n fc s

/-- VALIDATE (R140): the function code is RXB[7]. -/
def execValidate (s : State) : Host.Outcome State Fault Refusal :=
  commit .validate s (validateBody (readByte .rxb 7 s) s)

/-- The run of VALIDATE on a frame whose byte 7 is fc. -/
def validateFunctionCode (fc : Byte) (s : State) : Host.Outcome State Fault Refusal :=
  commit .validate s (validateBody (.ok fc) s)

/-- FC_READ_MULTIPLE_REGISTERS (R84): 0x03 at byte 7. -/
def execFcReadMultipleRegisters (s : State) : Host.Outcome State Fault Refusal :=
  validateFunctionCode functionCodeRead s

/-- FC_WRITE_MULTIPLE_REGISTERS (R84): 0x10 at byte 7. -/
def execFcWriteMultipleRegisters (s : State) : Host.Outcome State Fault Refusal :=
  validateFunctionCode functionCodeWrite s

/-- FC_EXCEPTION_READ (R84, R143): 0x83 at byte 7. -/
def execFcExceptionRead (s : State) : Host.Outcome State Fault Refusal :=
  validateFunctionCode (exceptionFunctionCode functionCodeRead) s

/-- FC_EXCEPTION_WRITE (R84, R143): 0x90 at byte 7. -/
def execFcExceptionWrite (s : State) : Host.Outcome State Fault Refusal :=
  validateFunctionCode (exceptionFunctionCode functionCodeWrite) s

/-- FC_OTHER (R84, R144): any other byte at byte 7. -/
def execFcOther (code : Byte) (s : State) : Host.Outcome State Fault Refusal :=
  validateFunctionCode code s

end Sys2Proof.Machine
end

