-- ==== Sys2Proof/Machine/Dispatch.lean ====
section
/-!
DEFINITION. One arm per constructor of Instr, each a direct call of the instruction's meaning.
-/
namespace Sys2Proof.Machine

def exec (i : Instr) (s : State) : Host.Outcome State Fault Refusal :=
  match i with
  | .enc16 => Sys2Proof.Machine.execEnc16 s
  | .enc32 => Sys2Proof.Machine.execEnc32 s
  | .encf32 => Sys2Proof.Machine.execEncf32 s
  | .dec16 => Sys2Proof.Machine.execDec16 s
  | .dec32 => Sys2Proof.Machine.execDec32 s
  | .decf32 => Sys2Proof.Machine.execDecf32 s
  | .buildrd => Sys2Proof.Machine.execBuildrd s
  | .buildwr => Sys2Proof.Machine.execBuildwr s
  | .validate => Sys2Proof.Machine.execValidate s
  | .tidnext => Sys2Proof.Machine.execTidnext s
  | .badCommand opcode => Sys2Proof.Machine.execBadCommand opcode s
  | .fcReadMultipleRegisters => Sys2Proof.Machine.execFcReadMultipleRegisters s
  | .fcWriteMultipleRegisters => Sys2Proof.Machine.execFcWriteMultipleRegisters s
  | .fcExceptionRead => Sys2Proof.Machine.execFcExceptionRead s
  | .fcExceptionWrite => Sys2Proof.Machine.execFcExceptionWrite s
  | .fcOther code => Sys2Proof.Machine.execFcOther code s

end Sys2Proof.Machine
end

