-- ==== Sys2Proof/Machine/RegMap.lean ====
section
/-!
DEFINITION. The register map of 10_state.md R21: number, width and host access of every register, its value as a host
read sees it (R45), and what a host write of it does (R44).
-/
namespace Sys2Proof.Machine

/-- The register number (R21). -/
def regNumber : RegName → Byte
  | .cmd => 0x00#8
  | .status => 0x01#8
  | .excode => 0x02#8
  | .ctrl => 0x03#8
  | .val => 0x04#8
  | .wb0 => 0x05#8
  | .wb1 => 0x06#8
  | .wb2 => 0x07#8
  | .wb3 => 0x08#8
  | .tidin => 0x09#8
  | .unit => 0x0A#8
  | .start => 0x0B#8
  | .count => 0x0C#8
  | .efc => 0x0D#8
  | .rxlen => 0x0E#8
  | .txlen => 0x0F#8
  | .expsize => 0x10#8
  | .payoff => 0x11#8
  | .paylen => 0x12#8
  | .tidctr => 0x13#8
  | .desync => 0x14#8

/-- The registers in the order of R21. -/
def allRegs : List RegName :=
  [.cmd, .status, .excode, .ctrl, .val, .wb0, .wb1, .wb2, .wb3, .tidin, .unit, .start, .count, .efc, .rxlen,
   .txlen, .expsize, .payoff, .paylen, .tidctr, .desync]

/-- The register with a number; none for the reserved numbers 0x15 to 0xFF (R41). -/
def regOfNumber (n : Byte) : Option RegName := allRegs.find? (fun r => regNumber r == n)

/-- The register's width in bits (R21). -/
def regWidth : RegName → Nat
  | .cmd => 8
  | .status => 8
  | .excode => 8
  | .ctrl => 8
  | .val => 32
  | .wb0 => 8
  | .wb1 => 8
  | .wb2 => 8
  | .wb3 => 8
  | .tidin => 16
  | .unit => 8
  | .start => 16
  | .count => 8
  | .efc => 8
  | .rxlen => 16
  | .txlen => 16
  | .expsize => 16
  | .payoff => 16
  | .paylen => 16
  | .tidctr => 16
  | .desync => 8

/-- Whether the host may write the register: access W or RW in R21. -/
def hostWritable : RegName → Bool
  | .cmd => true
  | .status => false
  | .excode => false
  | .ctrl => true
  | .val => true
  | .wb0 => true
  | .wb1 => true
  | .wb2 => true
  | .wb3 => true
  | .tidin => true
  | .unit => true
  | .start => true
  | .count => true
  | .efc => true
  | .rxlen => true
  | .txlen => false
  | .expsize => false
  | .payoff => false
  | .paylen => false
  | .tidctr => false
  | .desync => false

/-- A register with its written flag, in 32 bits: what the state holds of it. A register that R47 gives a reset value
counts as written; CMD stores nothing and is 0 (R32). -/
def regView (r : RegName) (s : State) : OperandReg 32 :=
  match r with
  | .cmd => OperandReg.of 0#32
  | .status => OperandReg.of (s.status.setWidth 32)
  | .excode => OperandReg.of (s.excode.setWidth 32)
  | .ctrl => OperandReg.of (s.ctrl.setWidth 32)
  | .val => s.val
  | .wb0 => { value := s.wb0.value.setWidth 32, written := s.wb0.written }
  | .wb1 => { value := s.wb1.value.setWidth 32, written := s.wb1.written }
  | .wb2 => { value := s.wb2.value.setWidth 32, written := s.wb2.written }
  | .wb3 => { value := s.wb3.value.setWidth 32, written := s.wb3.written }
  | .tidin => { value := s.tidin.value.setWidth 32, written := s.tidin.written }
  | .unit => { value := s.unit.value.setWidth 32, written := s.unit.written }
  | .start => { value := s.start.value.setWidth 32, written := s.start.written }
  | .count => { value := s.count.value.setWidth 32, written := s.count.written }
  | .efc => { value := s.efc.value.setWidth 32, written := s.efc.written }
  | .rxlen => { value := s.rxlen.value.setWidth 32, written := s.rxlen.written }
  | .txlen => OperandReg.of (s.txlen.setWidth 32)
  | .expsize => OperandReg.of (s.expsize.setWidth 32)
  | .payoff => OperandReg.of (s.payoff.setWidth 32)
  | .paylen => OperandReg.of (s.paylen.setWidth 32)
  | .tidctr => OperandReg.of (s.tidctr.setWidth 32)
  | .desync => OperandReg.of (s.desync.setWidth 32)

/-- A 32-bit draw cut to a register's width. -/
def drawOf (r : RegName) (draw : Word) : Word := (draw.setWidth (regWidth r)).setWidth 32

/-- What a host read of register r returns: its value, or the free draw where its written flag is clear (R45). -/
def hostRegValue (r : RegName) (s : State) : Word :=
  if (regView r s).written then (regView r s).value
  else drawOf r (Config.unwrittenReg s.drawSeed (regNumber r))

/-- What a host read of a buffer byte returns: the byte, or the free draw where its written flag is clear (R61). -/
def hostByteValue (b : Buffer) (a : Nat) (s : State) : Byte :=
  match (bufferOf b s).read a with
  | some v => v
  | none => Config.unwrittenByte s.drawSeed b a

/-- The host writes v to a writable register that is not CMD (R44): the register is set to v and its written flag is
set (R43); CTRL keeps bit 0 only (R31). The other registers do not change. -/
def writeOperandReg (r : RegName) (v : Word) (s : State) : State :=
  match r with
  | .cmd => s
  | .status => s
  | .excode => s
  | .ctrl => { s with ctrl := ctrlWritten (v.setWidth 8) }
  | .val => { s with val := OperandReg.of v }
  | .wb0 => { s with wb0 := OperandReg.of (v.setWidth 8) }
  | .wb1 => { s with wb1 := OperandReg.of (v.setWidth 8) }
  | .wb2 => { s with wb2 := OperandReg.of (v.setWidth 8) }
  | .wb3 => { s with wb3 := OperandReg.of (v.setWidth 8) }
  | .tidin => { s with tidin := OperandReg.of (v.setWidth 16) }
  | .unit => { s with unit := OperandReg.of (v.setWidth 8) }
  | .start => { s with start := OperandReg.of (v.setWidth 16) }
  | .count => { s with count := OperandReg.of (v.setWidth 8) }
  | .efc => { s with efc := OperandReg.of (v.setWidth 8) }
  | .rxlen => { s with rxlen := OperandReg.of (v.setWidth 16) }
  | .txlen => s
  | .expsize => s
  | .payoff => s
  | .paylen => s
  | .tidctr => s
  | .desync => s

end Sys2Proof.Machine
end

