-- ==== Sys2Proof/Machine/HostPort.lean ====
section
/-!
DEFINITION. The four host actions of 20_memory.md R61, with the register access rules of 10_state.md R44 and R45. A
host write of CMD is where a command runs (R32).
-/
namespace Sys2Proof.Machine

/-- A host write of CMD: the byte is decoded and consumed, and the command runs on the state as it stands (R32, R46,
R65). -/
def runCommand (op : Byte) (s : State) : Host.Outcome State Fault Refusal :=
  match decode .command [op] with
  | .ok (i, _) => exec i s
  | .error .noByte => .next s

/-- HostWriteReg(r, v) (R44). A reserved number or a register the host may only read ignores the write. -/
def hostWriteReg (n : Byte) (v : Word) (s : State) : Host.Outcome State Fault Refusal :=
  match regOfNumber n with
  | none => .next s
  | some r =>
    if hostWritable r then
      if v.toNat < 2 ^ regWidth r then
        if r = .cmd then runCommand (v.setWidth 8) s else .next (writeOperandReg r v s)
      else .refused (.hostValueTooWide r)
    else .next s

/-- HostReadReg(r) (R45): no side effect; a reserved number reads 0. -/
def hostReadReg (n : Byte) (s : State) : Host.Outcome State Fault Refusal :=
  match regOfNumber n with
  | none => .next (handHost 0#32 s)
  | some r => .next (handHost (hostRegValue r s) s)

/-- HostWriteBuf(S, a, b), S in RXB and WDB, a below the capacity (R61). -/
def hostWriteBuf (b : Buffer) (a : Nat) (v : Byte) (s : State) : Host.Outcome State Fault Refusal :=
  if a < b.capacity s.params then
    match b with
    | .txb => .refused (.hostWriteTxb a)
    | .rxb => .next (storeRxb a v s)
    | .wdb => .next (storeWdb a v s)
  else .fault (.outsideBuffer b a)

/-- HostReadBuf(S, a), a below the capacity (R61): no side effect. -/
def hostReadBuf (b : Buffer) (a : Nat) (s : State) : Host.Outcome State Fault Refusal :=
  if a < b.capacity s.params then .next (handHost ((hostByteValue b a s).setWidth 32) s)
  else .fault (.outsideBuffer b a)

/-- One host action. -/
def hostAct (act : HostAction) (s : State) : Host.Outcome State Fault Refusal :=
  match act with
  | .writeReg n v => hostWriteReg n v s
  | .readReg n => hostReadReg n s
  | .writeBuf b a v => hostWriteBuf b a v s
  | .readBuf b a => hostReadBuf b a s

/-- The host's next action, in the order the host makes them (R62). WCFE waits while there is none (R202, R211), and a
FAULTED state is quiescent: nothing changes it any more (R196). -/
def nextAction (s : State) : Host.Outcome State Fault Refusal :=
  match s.faulted with
  | some _ => .next s
  | none =>
    match s.pending with
    | [] => .next s
    | act :: rest => hostAct act (takeAction rest s)

/-- The host's next action becomes the write of byte op to CMD. -/
def prependCommand (op : Byte) (s : State) : State :=
  { s with pending := .writeReg (regNumber .cmd) (op.setWidth 32) :: s.pending }

end Sys2Proof.Machine
end

