-- ==== Sys2Proof/Machine/Step.lean ====
section
/-!
DEFINITION. One step of WCFE: the host's next action (70_reset_and_hazards.md R222). WCFE fetches nothing (R22, R65):
its instructions are the bytes the host writes to CMD.
-/
namespace Sys2Proof.Machine

/-- One step. -/
def step (s : State) : Host.Outcome State Fault Refusal := nextAction s

/-- s with the instruction whose bits are w as the very next thing step runs: the host's next action is the write of
that byte to CMD (log 2). -/
def State.withFetchWord (s : State) (nbits w : Nat) : State := prependCommand (tableByte nbits w) s

end Sys2Proof.Machine
end

