-- ==== Sys2Proof/Machine/HostProgram.lean ====
section
/-!
DEFINITION. The host's side as far as the spec writes it down: command syntax and host-action forms (30_encoding.md
R87, R88), pseudo-instructions and their exact expansions (R89), the host's two-tier result (60_exceptions.md R197), and
one exchange from the request to its result (70_reset_and_hazards.md R213). WCFE itself holds none of it: an exchange is
host actions, each made by a step, and what the host decides on what it reads.
-/
namespace Sys2Proof.Machine

/-- The commands with their lower-case mnemonics (R87). -/
def commandSyntax : List (String × Instr) :=
  [("enc16", .enc16), ("enc32", .enc32), ("encf32", .encf32),
   ("dec16", .dec16), ("dec32", .dec32), ("decf32", .decf32),
   ("buildrd", .buildrd), ("buildwr", .buildwr),
   ("validate", .validate), ("tidnext", .tidnext)]

/-- The command of a mnemonic (R87). -/
def commandOfMnemonic (m : String) : Option Instr := commandSyntax.lookup m

/-- A register write `wr NAME, v` (R88). -/
def wr (r : RegName) (v : Word) : HostAction := .writeReg (regNumber r) v

/-- A register read `rd NAME` (R88). -/
def rd (r : RegName) : HostAction := .readReg (regNumber r)

/-- A command line: the host write of its opcode to CMD (R87). -/
def commandLine (i : Instr) : HostAction := wr .cmd ((encodeByte i).setWidth 32)

/-- `wrb S[a], b0 b1 ...`: single-byte writes in order (R88). -/
def wrb (b : Buffer) : Nat → List Byte → List HostAction
  | _, [] => []
  | a, v :: rest => .writeBuf b a v :: wrb b (a + 1) rest

/-- Reads of n bytes from a upward, in order. -/
def rdbFrom (b : Buffer) : Nat → Nat → List HostAction
  | _, 0 => []
  | a, n + 1 => .readBuf b a :: rdbFrom b (a + 1) n

/-- `rdb S[a..c]`: bytes a to c in order (R88). -/
def rdb (b : Buffer) (a c : Nat) : List HostAction := rdbFrom b a (c + 1 - a)

/-- The pseudo-instructions of R89. -/
inductive Pseudo where
  | encode16 (v : Word)
  | encode32 (v : Word)
  | encodef32 (v : Word)
  | decode16 (b0 b1 : Byte)
  | decode32 (b0 b1 b2 b3 : Byte)
  | decodef32 (b0 b1 b2 b3 : Byte)
  | readreq (u : Byte) (s : Half) (c : Byte)
  /-- R89 writes it with exactly 2c data bytes. DESIGN CHOICE (log 15): the model carries a list of any length. -/
  | writereq (u : Byte) (s : Half) (c : Byte) (data : List Byte)
  | rxframe (frame : List Byte)
  | check (f : Byte)
  deriving DecidableEq, Repr

/-- The writes of WB0 to WB3. -/
def writeFourLanes (b0 b1 b2 b3 : Byte) : List HostAction :=
  [wr .wb0 (b0.setWidth 32), wr .wb1 (b1.setWidth 32), wr .wb2 (b2.setWidth 32), wr .wb3 (b3.setWidth 32)]

/-- The writes of UNIT, START and COUNT. -/
def requestOperandWrites (u : Byte) (s : Half) (c : Byte) : List HostAction :=
  [wr .unit (u.setWidth 32), wr .start (s.setWidth 32), wr .count (c.setWidth 32)]

/-- What a request is built with once its operands are written: nothing more for a read, the data for a write. -/
inductive RequestKind where
  /-- A read of registers. -/
  | read
  /-- A write of registers with these data bytes, which go to WDB[0] upward. -/
  | write (data : List Byte)
  deriving DecidableEq, Repr

/-- The writes of WDB, if any, and the build command (R89, R213 step 2). -/
def buildActions : RequestKind → List HostAction
  | .read => [commandLine .buildrd]
  | .write data => wrb .wdb 0 data ++ [commandLine .buildwr]

/-- The n that `wr RXLEN, n` carries. DESIGN CHOICE (log 17): an action carries 32 bits, and R89 and R44 give no write of
an n that does not fit RXLEN's 16; such an n stays too wide, the largest 32-bit value standing for one of 2^32 or more,
so that the step refuses it (log 9) and no n wraps. -/
def rxlenValue (n : Nat) : Word := BitVec.ofNat 32 (min n (2 ^ 32 - 1))

/-- The expansion of a pseudo-instruction (R89). For writereq the rule gives the expansion with exactly 2c data bytes;
with another number of bytes the same actions are made of the bytes there are, which is the model's DESIGN CHOICE
(log 15). For rxframe of more bytes than RXLEN can hold see rxlenValue (log 17). -/
def expand : Pseudo → List HostAction
  | .encode16 v => [wr .val v, commandLine .enc16]
  | .encode32 v => [wr .val v, commandLine .enc32]
  | .encodef32 v => [wr .val v, commandLine .encf32]
  | .decode16 b0 b1 => [wr .wb0 (b0.setWidth 32), wr .wb1 (b1.setWidth 32), commandLine .dec16]
  | .decode32 b0 b1 b2 b3 => writeFourLanes b0 b1 b2 b3 ++ [commandLine .dec32]
  | .decodef32 b0 b1 b2 b3 => writeFourLanes b0 b1 b2 b3 ++ [commandLine .decf32]
  | .readreq u s c => commandLine .tidnext :: requestOperandWrites u s c ++ buildActions .read
  | .writereq u s c data => commandLine .tidnext :: requestOperandWrites u s c ++ buildActions (.write data)
  | .rxframe frame => wrb .rxb 0 frame ++ [wr .rxlen (rxlenValue frame.length)]
  | .check f => [wr .efc (f.setWidth 32), commandLine .validate]

/-- Step 4 of an exchange, for the expected function code f, and the read of STATUS that step 5 begins with: the
response to RXB, RXLEN, EFC, VALIDATE, STATUS (R213). -/
def exchangeResponse (f : Byte) (response : List Byte) : List HostAction :=
  expand (.rxframe response) ++ expand (.check f) ++ [rd .status]

/-- What the transport told the host (R197). The transport itself is out of scope (00_scope.md R5). -/
inductive TransportReport where
  /-- The write reported fewer bytes than TXLEN, or failed. -/
  | writeFailed
  /-- The read failed or timed out. -/
  | readFailed
  /-- Bytes were read. -/
  | received (response : List Byte)
  deriving DecidableEq, Repr

/-- What the host does next with the report: nothing, or the response and VALIDATE (R197). -/
def actionsAfterTransport (f : Byte) : TransportReport → List HostAction
  | .writeFailed => []
  | .readFailed => []
  | .received response => exchangeResponse f response

/-- The one status byte of the composite: 0x58 for a transport failure, else VALIDATE's STATUS (R197). -/
def compositeStatus (report : TransportReport) (validateStatus : Byte) : Byte :=
  match report with
  | .writeFailed => statusByte .transportError
  | .readFailed => statusByte .transportError
  | .received _ => validateStatus

/-! ### One exchange (R213; log 16) -/

/-- Step 1: where the host has the transaction id from. -/
inductive IdSource where
  /-- `tidnext`. -/
  | counter
  /-- `wr TIDIN` with an id of the host's own. -/
  | given (tid : Half)
  deriving DecidableEq, Repr

/-- The action of step 1. -/
def idActions : IdSource → List HostAction
  | .counter => [commandLine .tidnext]
  | .given tid => [wr .tidin (tid.setWidth 32)]

/-- What the host asks for in one exchange. -/
structure ExchangeRequest where
  /-- Where the transaction id is from. -/
  id : IdSource
  /-- For UNIT. -/
  unit : Byte
  /-- For START. -/
  start : Half
  /-- For COUNT. -/
  count : Byte
  /-- A read, or a write with its data. -/
  kind : RequestKind
  deriving DecidableEq, Repr

/-- The expected function code of the exchange: 0x03 for a read, 0x10 for a write (R213). -/
def expectedFunctionCode : RequestKind → Byte
  | .read => functionCodeRead
  | .write _ => functionCodeWrite

/-- Steps 1 and 2 and the read of STATUS that step 3 begins with. -/
def exchangeRequest (r : ExchangeRequest) : List HostAction :=
  idActions r.id ++ requestOperandWrites r.unit r.start r.count ++ buildActions r.kind ++ [rd .status]

/-- How an exchange ends for the host. -/
inductive ExchangeResult where
  /-- STATUS after the build is not OK: the host stops, and nothing is sent (step 3). -/
  | notSent (status : Byte)
  /-- The transport failed: TRANSPORT_ERROR (R197). -/
  | transportFailed
  /-- OK: the payload RXB[PAYOFF..PAYOFF+PAYLEN-1] (step 5). -/
  | payload (bytes : List Byte)
  /-- DEVICE_EXCEPTION, with EXCODE (step 5). -/
  | exception (code : Byte)
  /-- FATAL = 1: the host abandons the connection (step 5, R186). -/
  | abandoned (status : Byte)
  /-- Any other status, of which step 5 says nothing. DESIGN CHOICE: the host does nothing more (log 16). -/
  | failed (status : Byte)
  /-- A command faulted: the run is FAULTED and nothing more happens in it (R196). -/
  | faulted (mark : FaultMark)
  deriving DecidableEq, Repr

/-- What a part of an exchange answers: the state after it and the result, or a stop of step. -/
abbrev ExchangeOutcome := Host.Outcome (State × ExchangeResult) Fault Refusal

/-- n steps. -/
def runSteps : Nat → State → Host.Outcome State Fault Refusal
  | 0, s => .next s
  | n + 1, s =>
    match step s with
    | .next t => runSteps n t
    | .fault r => .fault r
    | .refused r => .refused r

/-- The host makes these actions next, before any others. -/
def giveActions (acts : List HostAction) (s : State) : State := { s with pending := acts ++ s.pending }

/-- The host makes the actions in order, one step each (R62). -/
def makeActions (acts : List HostAction) (s : State) : Host.Outcome State Fault Refusal :=
  runSteps acts.length (giveActions acts s)

/-- The host makes the actions and goes on as k says, unless one of them faults. -/
def afterActions (acts : List HostAction) (s : State) (k : State → ExchangeOutcome) : ExchangeOutcome :=
  match makeActions acts s with
  | .next t =>
    match t.faulted with
    | some mark => .next (t, .faulted mark)
    | none => k t
  | .fault r => .fault r
  | .refused r => .refused r

/-- What host reads of n bytes from a upward return. -/
def hostBytes (b : Buffer) (a n : Nat) (s : State) : List Byte :=
  (List.range n).map (fun k => hostByteValue b (a + k) s)

/-- Step 5, once STATUS has been read: the payload after OK, EXCODE after DEVICE_EXCEPTION, the end of the connection
after a FATAL status. DESIGN CHOICE: to have the payload the host reads PAYOFF and then PAYLEN (log 16). -/
def finishExchange (s : State) : ExchangeOutcome :=
  if statusCodeField s.status = codeOf .ok then
    afterActions [rd .payoff, rd .paylen] s fun s =>
      afterActions (rdbFrom .rxb s.payoff.toNat s.paylen.toNat) s fun s =>
        .next (s, .payload (hostBytes .rxb s.payoff.toNat s.paylen.toNat s))
  else if statusCodeField s.status = codeOf .deviceException then
    afterActions [rd .excode] s fun s => .next (s, .exception s.excode)
  else if statusFatalField s.status then .next (s, .abandoned s.status)
  else .next (s, .failed s.status)

/-- What the host does with the transport's report: nothing more after a failure, else steps 4 and 5 (R197, R213). -/
def continueAfterTransport (f : Byte) (report : TransportReport) (s : State) : ExchangeOutcome :=
  match report with
  | .writeFailed => .next (s, .transportFailed)
  | .readFailed => .next (s, .transportFailed)
  | .received _ => afterActions (actionsAfterTransport f report) s finishExchange

/-- Step 3, once STATUS has been read: stop if it is not OK, else read TXLEN (DESIGN CHOICE, log 16) and TXB[0..TXLEN-1]
and send those bytes. The
transport answers bytes sent with a report; it is outside WCFE (00_scope.md R5), so it is any function. -/
def sendRequest (f : Byte) (transport : List Byte → TransportReport) (s : State) : ExchangeOutcome :=
  if statusCodeField s.status = codeOf .ok then
    afterActions [rd .txlen] s fun s =>
      afterActions (rdbFrom .txb 0 s.txlen.toNat) s fun s =>
        continueAfterTransport f (transport (hostBytes .txb 0 s.txlen.toNat s)) s
  else .next (s, .notSent s.status)

/-- One exchange, from the request to its result (R213). -/
def exchange (r : ExchangeRequest) (transport : List Byte → TransportReport) (s : State) : ExchangeOutcome :=
  afterActions (exchangeRequest r) s (sendRequest (expectedFunctionCode r.kind) transport)

end Sys2Proof.Machine
end

