-- ==== Sys2Proof/Safety.lean ====
section
/-!
DEFINITION. The terms claims are made in: what a good final state is (70_reset_and_hazards.md R222), the invariant of
the machine, what two states agree on (frames), and which actions of a run are TIDNEXT.
-/
namespace Sys2Proof.Machine

/-- The next state of an outcome, if it is one. -/
def nextState : Host.Outcome State Fault Refusal → Option State
  | .next s => some s
  | .fault _ => none
  | .refused _ => none

/-- No FAULTED mark: what a good final state of a run needs (R222). -/
abbrev notFaulted (s : State) : Prop := s.faulted = none

/-- A clean connection: a good state whose LATCH is 0, which a claim must ask for by itself (R222). -/
abbrev cleanConnection (s : State) : Prop := notFaulted s ∧ desyncLatch s.desync = false

/-- The STATUS bytes WCFE can hold: those of R182 but TRANSPORT_ERROR, which it never produces (R181). -/
def possibleStatus : List Byte :=
  [0x00#8, 0x31#8, 0x62#8, 0x63#8, 0x64#8, 0x65#8, 0x66#8, 0x27#8, 0x39#8, 0x3A#8]

/-- The invariant of the machine. -/
structure MachineInv (s : State) : Prop where
  /-- TXB is canonical (model) and within its capacity (R50). -/
  txb : Memory.wf s.txb = true ∧ Memory.within Config.txbCapacity s.txb = true
  /-- RXB is canonical (model) and within its capacity (R50). -/
  rxb : Memory.wf s.rxb = true ∧ Memory.within s.params.rxCap s.rxb = true
  /-- WDB is canonical (model) and within its capacity (R50). -/
  wdb : Memory.wf s.wdb = true ∧ Memory.within Config.wdbCapacity s.wdb = true
  /-- RX_CAP is at least 264 (R6). -/
  rxCap : 264 ≤ s.params.rxCap
  /-- STATUS is a byte WCFE can produce; its bit 7 and the codes 8 and 11 to 15 never occur (R33, R181). -/
  status : s.status ∈ possibleStatus
  /-- CTRL bits 7:1 are 0 (R31). -/
  ctrl : s.ctrl = 0x00#8 ∨ s.ctrl = 0x01#8
  /-- DESYNC bits 7:1 are 0 (R40). -/
  desync : s.desync = 0x00#8 ∨ s.desync = 0x01#8
  /-- TXLEN bytes of TXB are a frame that has been written (R35, R51). -/
  txlen : s.txlen.toNat ≤ Config.txbCapacity ∧
    ∀ a, a < s.txlen.toNat → (Memory.read s.txb a).isSome = true
  /-- The payload slice lies in RXB (R148, R150). -/
  payload : s.payoff.toNat + s.paylen.toNat ≤ s.params.rxCap

/-! ### Frames -/

/-- Every register but the listed ones, with its written flag, is the same in both states. -/
def SameRegsBut (changed : List RegName) (s t : State) : Prop :=
  ∀ r, r ∉ changed → regView r t = regView r s

/-- Every byte of the buffer, with its written flag, is the same in both states. -/
def SameBytes (b : Buffer) (s t : State) : Prop :=
  ∀ a, Memory.read (bufferOf b t) a = Memory.read (bufferOf b s) a

/-- Every byte of all three buffers is the same in both states. -/
def SameBuffers (s t : State) : Prop := ∀ b, SameBytes b s t

/-- The FAULTED mark, the parameters, the host's pending actions, its last read and the draw are the same. -/
def SameSurroundings (s t : State) : Prop :=
  t.faulted = s.faulted ∧ t.params = s.params ∧ t.pending = s.pending ∧ t.lastRead = s.lastRead ∧
    t.drawSeed = s.drawSeed

/-! ### Conditions on operands -/

/-- TIDIN, UNIT, START and COUNT have been written (R212). -/
def RequestOperandsWritten (s : State) : Prop :=
  s.tidin.written = true ∧ s.unit.written = true ∧ s.start.written = true ∧ s.count.written = true

/-- WDB[0] to WDB[2c-1] have been written, c the value of COUNT (R212). -/
def WriteDataWritten (s : State) : Prop :=
  ∀ a, a < 2 * s.count.value.toNat → (Memory.read s.wdb a).isSome = true

/-- Valid arguments of VALIDATE: EFC and RXLEN written, EFC one of 0x03 and 0x10, RXLEN at most RX_CAP (R141). -/
def ValidArguments (s : State) : Prop :=
  s.efc.written = true ∧ s.rxlen.written = true ∧
    (s.efc.value = 0x03#8 ∨ s.efc.value = 0x10#8) ∧ s.rxlen.value.toNat ≤ s.params.rxCap

/-- The byte at RXB[a] is v, and has been written. -/
def Received (s : State) (a : Nat) (v : Byte) : Prop := Memory.read s.rxb a = some v

/-! ### Runs -/

/-- The action is a host write of TIDNEXT's opcode to CMD. -/
def isTidnext (act : HostAction) : Bool := act == commandLine .tidnext

/-- How many of the actions run TIDNEXT. -/
def tidnextCount (acts : List HostAction) : Nat := acts.countP isTidnext

/-! ### How a command ends, in the words of statements -/

/-- ENDC after a codec command that ends with finish: HOST_ENDIAN if it was UNKNOWN, else as it was (R42, R101). -/
def EndcCached (s t : State) : Prop :=
  (s.endc = .unknown → t.endc = cacheOf s.params.hostEndian) ∧ (s.endc ≠ .unknown → t.endc = s.endc)

/-- Instruction i raises Fault(UNWRITTEN, what), which names the command c: nothing is written but the mark (R196). -/
def FaultsOn (i c : Instr) (s : State) (what : Place) : Prop :=
  exec i s = .next { s with faulted := some { command := c, what := what } }

/-- Instruction i ends as VALIDATE does, with these values of STATUS, EXCODE, PAYOFF, PAYLEN and DESYNC, and changes
nothing else (R150). -/
def ValidateEndsWith (i : Instr) (s : State) (status excode : Byte) (payoff paylen : Half) (desync : Byte) : Prop :=
  ∃ t, exec i s = .next t ∧ t.status = status ∧ t.excode = excode ∧ t.payoff = payoff ∧ t.paylen = paylen ∧
    t.desync = desync ∧ t.endc = s.endc ∧ SameRegsBut [.status, .excode, .payoff, .paylen, .desync] s t ∧
    SameBuffers s t ∧ SameSurroundings s t

/-- The outcome fail(C) of R140 for a code that is not fatal. -/
def FailsLocally (i : Instr) (s : State) (status : Byte) : Prop :=
  ValidateEndsWith i s status 0x00#8 0#16 0#16 s.desync

/-- The outcome fail(C) of R140 for a fatal code: LATCH is set. -/
def FailsFatally (i : Instr) (s : State) (status : Byte) : Prop :=
  ValidateEndsWith i s status 0x00#8 0#16 0#16 (s.desync ||| 0x01#8)

/-- A build faults on its first unwritten register operand, in the order TIDIN, UNIT, START, COUNT (R120, R188). -/
def RequestFaultsInOrder (i : Instr) (s : State) : Prop :=
  (s.tidin.written = false → FaultsOn i i s (.reg .tidin)) ∧
  (s.tidin.written = true → s.unit.written = false → FaultsOn i i s (.reg .unit)) ∧
  (s.tidin.written = true → s.unit.written = true → s.start.written = false → FaultsOn i i s (.reg .start)) ∧
  (s.tidin.written = true → s.unit.written = true → s.start.written = true → s.count.written = false →
    FaultsOn i i s (.reg .count))

/-- The outcome of a build with COUNT above 127 (R121). -/
def CountRejected (i : Instr) (s : State) : Prop :=
  ∃ t, exec i s = .next t ∧ t.status = 0x31#8 ∧ t.txlen = 0#16 ∧ t.expsize = 0#16 ∧ t.endc = s.endc ∧
    SameRegsBut [.status, .txlen, .expsize] s t ∧ SameBuffers s t ∧ SameSurroundings s t

/-- The outcome of an accepted build: the frame is TXB[0] upward, every other byte is as it was (R51, R120, R124). -/
def RequestBuilt (i : Instr) (s : State) (frame : List Byte) (txlen expsize : Nat) : Prop :=
  ∃ t, exec i s = .next t ∧ t.status = 0x00#8 ∧ t.txlen.toNat = txlen ∧ t.expsize.toNat = expsize ∧
    frame.length = txlen ∧
    (∀ a, a < txlen → Memory.read t.txb a = frame[a]?) ∧
    (∀ a, txlen ≤ a → Memory.read t.txb a = Memory.read s.txb a) ∧
    t.endc = s.endc ∧ SameRegsBut [.status, .txlen, .expsize] s t ∧ SameBytes .rxb s t ∧ SameBytes .wdb s t ∧
    SameSurroundings s t

/-- Steps 4 and 5 pass for expected function code efc: the length field is received and n is at least length + 6, and
for a read n is 9 + byte 8 (R145, R146). -/
def PassesLengthAndSize (s : State) : Prop :=
  (∃ b4 b5, Received s 4 b4 ∧ Received s 5 b5 ∧ (b4 ++ b5).toNat + 6 ≤ s.rxlen.value.toNat) ∧
  (s.efc.value = 0x03#8 → ∃ bc, Received s 8 bc ∧ s.rxlen.value.toNat = 9 + bc.toNat)

/-- The frame passes steps 1 to 5 of VALIDATE (R142 to R146). -/
def PassesSteps1To5 (s : State) : Prop :=
  ValidArguments s ∧ 9 ≤ s.rxlen.value.toNat ∧ Received s 7 s.efc.value ∧ PassesLengthAndSize s

/-- Step 6 passes: no transaction id was supplied, or bytes 0 and 1 are TIDIN (R147). -/
def TransactionMatches (s : State) : Prop :=
  tidchk s.ctrl = false ∨
    (s.tidin.written = true ∧ ∃ b0 b1, Received s 0 b0 ∧ Received s 1 b1 ∧ b0 ++ b1 = s.tidin.value)

/-- Success with the payload slice of R148, by the expected function code. -/
def SucceedsWithSlice (i : Instr) (s : State) : Prop :=
  (s.efc.value = 0x03#8 → ∀ bc, Received s 8 bc →
    ValidateEndsWith i s 0x00#8 0x00#8 9#16 (bc.setWidth 16) s.desync) ∧
  (s.efc.value = 0x10#8 →
    ValidateEndsWith i s 0x00#8 0x00#8 8#16 (BitVec.ofNat 16 (s.rxlen.value.toNat - 8)) s.desync)

/-- The RXB bytes VALIDATE may read have all been written (R151). -/
def ValidateBytesWritten (s : State) : Prop :=
  ∀ a, a ∈ [0, 1, 4, 5, 7, 8] → (Memory.read s.rxb a).isSome = true

/-- The place holds nothing written. -/
def Unwritten (s : State) : Place → Prop
  | .reg r => (regView r s).written = false
  | .byte b a => Memory.read (bufferOf b s) a = none

/-- The command a fault of instruction i names: the function codes of the wire are met inside VALIDATE (log 1). -/
def faultingCommand (i : Instr) : Instr :=
  match layerOf i with
  | .command => i
  | .wire => .validate

/-! ### What a command does not look at -/

/-- s with everything that the builds neither read nor write taken from x (R129). -/
def withReceiveSideOf (x s : State) : State :=
  { s with
    tidctr := x.tidctr, rxb := x.rxb, rxlen := x.rxlen, efc := x.efc, ctrl := x.ctrl, excode := x.excode
    payoff := x.payoff, paylen := x.paylen, val := x.val, wb0 := x.wb0, wb1 := x.wb1, wb2 := x.wb2, wb3 := x.wb3 }

/-- s with everything that VALIDATE neither reads nor writes taken from x, RXB included, which it may read at six
addresses only (R151, R152). -/
def withUnvalidatedOf (x s : State) : State :=
  { s with
    rxb := x.rxb, unit := x.unit, start := x.start, count := x.count, txb := x.txb, wdb := x.wdb, txlen := x.txlen
    expsize := x.expsize, tidctr := x.tidctr, val := x.val, wb0 := x.wb0, wb1 := x.wb1, wb2 := x.wb2, wb3 := x.wb3 }

/-- s on a host of byte order h, with the cache ENDC at e. -/
def withByteOrder (h : Endian) (e : Endc) (s : State) : State :=
  { s with endc := e, params := { s.params with hostEndian := h } }

end Sys2Proof.Machine
end

