-- ==== Sys2Proof/Certificates/Slice0/Obligations.lean ====
section
/-!
DEFINITION. The statements for the provers. Each docstring says which rule of spec/ it formalises.
-/
open Sys2Proof Sys2Proof.Machine

/-! ### Encoding -/

/-- Decoding the encoding of a well-formed instruction, in its layer and before any other bytes, gives it back and
leaves the other bytes (30_encoding.md sections 1 and 3). -/
def Obligations.DecodeEncodeRoundTrip : Prop :=
  ∀ (i : Instr) (rest : List Byte), i.wf = true → decode (layerOf i) (encode i ++ rest) = .ok (i, rest)

/-- The other direction: what a byte decodes to is well-formed, belongs to the layer and encodes to that byte, so no two
bytes of a layer have one meaning (30_encoding.md sections 1 and 3). -/
def Obligations.EncodeDecodeRoundTrip : Prop :=
  ∀ (l : Layer) (b : Byte) (rest : List Byte), ∃ i,
    decode l (b :: rest) = .ok (i, rest) ∧ i.wf = true ∧ layerOf i = l ∧ encode i = [b]

/-- Some words of the maps of R71 and R84. -/
def Obligations.SpecWordsDecode : Prop :=
  decode .command [0x01#8] = .ok (.enc16, []) ∧ decode .command [0x03#8] = .ok (.encf32, []) ∧
  decode .command [0x06#8] = .ok (.decf32, []) ∧ decode .command [0x11#8] = .ok (.buildwr, []) ∧
  decode .command [0x20#8] = .ok (.validate, []) ∧ decode .command [0x30#8] = .ok (.tidnext, []) ∧
  decode .command [0x83#8] = .ok (.badCommand 0x83#8, []) ∧
  decode .wire [0x03#8] = .ok (.fcReadMultipleRegisters, []) ∧
  decode .wire [0x90#8] = .ok (.fcExceptionWrite, []) ∧ decode .wire [0x01#8] = .ok (.fcOther 0x01#8, [])

/-- R72: exactly the listed opcodes are reserved, there are 246 of them, and a host write of one to CMD is BAD_COMMAND. -/
def Obligations.ReservedOpcodesAreBadCommand : Prop :=
  (∀ b : Byte, reservedOpcode b = true ↔ decodeCommand b = .badCommand b) ∧
  ((List.range 256).filter (fun n => reservedOpcode (BitVec.ofNat 8 n))).length = 246 ∧
  (∀ (b : Byte) (s : State), reservedOpcode b = true →
    hostWriteReg 0x00#8 (b.setWidth 32) s = exec (.badCommand b) s)

/-- R54 and R55: byte order is big-endian, both ways, and a u32 in two device registers is its upper u16 and then its
lower one. -/
def Obligations.BytesAreBigEndian : Prop :=
  (∀ b0 b1 : Byte, be16 (joinBE16 b0 b1) = [b0, b1]) ∧
  (∀ b0 b1 b2 b3 : Byte, be32 (joinBE32 b0 b1 b2 b3) = [b0, b1, b2, b3]) ∧
  (∀ v : Half, joinBE16 (v.extractLsb' 8 8) (v.extractLsb' 0 8) = v) ∧
  (∀ v : Word, be32 v = be16 (v.extractLsb' 16 16) ++ be16 (v.extractLsb' 0 16))

/-! ### Steps and the host interface -/

/-- R32: a host write of op to CMD runs the command whose opcode is op, BAD_COMMAND for an unassigned one, on the state
with that action taken; a host read of CMD returns 0. The queue of actions and the record of what a read returned are
the model's (log 2, log 8). -/
def Obligations.StepRunsTheDecodedCommand : Prop :=
  ∀ (s : State) (op : Byte) (i : Instr) (rest : List HostAction), s.faulted = none →
    (s.pending = .writeReg 0x00#8 (op.setWidth 32) :: rest → decode .command [op] = .ok (i, []) →
      step s = exec i (takeAction rest s)) ∧
    (s.pending = .readReg 0x00#8 :: rest →
      step s = .next (handHost 0x00#32 (takeAction rest s)))

/-- 10_state.md section 5: what a host write of a register does, for every register number: a writable register takes the
value (CTRL bit 0 of it), CMD runs the command, a host-read-only register or a reserved number ignores the write. That
the action is the head of a queue is the model's form of a host action (log 2), and so is that a write of the last two
is ignored whatever its width (log 14). -/
def Obligations.HostWriteRegisterRule : Prop :=
  ∀ (s : State) (n : Byte) (v : Word) (rest : List HostAction), s.faulted = none →
    s.pending = .writeReg n v :: rest →
    (∀ r, regOfNumber n = some r → hostWritable r = true → r ≠ .cmd → v.toNat < 2 ^ regWidth r →
      ∃ t, step s = .next t ∧
        regView r t = OperandReg.of (if r = .ctrl then v &&& 0x01#32 else v) ∧
        SameRegsBut [r] s t ∧ SameBuffers s t ∧ t.endc = s.endc ∧
        SameSurroundings (takeAction rest s) t) ∧
    (regOfNumber n = some .cmd → v.toNat < 256 →
      step s = exec (decodeCommand (v.setWidth 8)) (takeAction rest s)) ∧
    (∀ r, regOfNumber n = some r → hostWritable r = false → step s = .next (takeAction rest s)) ∧
    (0x15 ≤ n.toNat → step s = .next (takeAction rest s))

/-- R45: a host read returns the register's current value, 0 for CMD and reserved numbers, and for an unwritten
register some value of its width that the model leaves free (log 6); it changes nothing but what the host has read,
which the model records in a field of its own (log 8). -/
def Obligations.HostReadRegisterRule : Prop :=
  ∀ (s : State) (n : Byte) (rest : List HostAction), s.faulted = none → s.pending = .readReg n :: rest →
    (∀ r, regOfNumber n = some r → (regView r s).written = true →
      step s = .next (handHost ((regView r s).value) (takeAction rest s))) ∧
    (∀ r, regOfNumber n = some r → (regView r s).written = false →
      ∃ x : Word, x.toNat < 2 ^ regWidth r ∧ step s = .next (handHost x (takeAction rest s))) ∧
    (n = 0x00#8 ∨ 0x15 ≤ n.toNat → step s = .next (handHost 0x00#32 (takeAction rest s)))

/-- R61, the two buffer actions: a write to RXB or WDB within its capacity stores the byte and touches no other; a read
within the capacity hands the host the byte, or some byte that the model leaves free where none has been written (log 6;
the value handed over is in the model's lastRead, log 8, and the action in its queue, log 2). Outside the capacity there is no move, and none for a write of TXB: that
those stop as they do is the model's choice (log 10). -/
def Obligations.HostBufferAccess : Prop :=
  ∀ (s : State) (b : Buffer) (a : Nat) (v : Byte) (rest : List HostAction), s.faulted = none →
    (s.pending = .writeBuf b a v :: rest → a < b.capacity s.params → b ≠ .txb →
      ∃ t, step s = .next t ∧ Memory.read (bufferOf b t) a = some v ∧
        (∀ x, x ≠ a → Memory.read (bufferOf b t) x = Memory.read (bufferOf b s) x) ∧
        (∀ c, c ≠ b → SameBytes c s t) ∧ SameRegsBut [] s t ∧ t.endc = s.endc ∧
        SameSurroundings (takeAction rest s) t) ∧
    (s.pending = .readBuf b a :: rest → a < b.capacity s.params → Memory.read (bufferOf b s) a = some v →
      step s = .next (handHost (v.setWidth 32) (takeAction rest s))) ∧
    (s.pending = .readBuf b a :: rest → a < b.capacity s.params → Memory.read (bufferOf b s) a = none →
      ∃ x : Byte, step s = .next (handHost (x.setWidth 32) (takeAction rest s))) ∧
    (s.pending = .writeBuf b a v :: rest ∨ s.pending = .readBuf b a :: rest → ¬ a < b.capacity s.params →
      step s = .fault (.outsideBuffer b a)) ∧
    (s.pending = .writeBuf .txb a v :: rest → a < 267 → step s = .refused (.hostWriteTxb a))

/-- R58: no host read has a side effect, and a repeated host read returns the same value, unwritten registers and bytes
included. That the free values repeat rests on how the model draws them (log 6), and lastRead is the model's own record
(log 8). -/
def Obligations.RepeatedHostReadsAgree : Prop :=
  ∀ (s t u : State) (act : HostAction) (rest : List HostAction), s.faulted = none →
    (∃ n, act = .readReg n) ∨ (∃ b a, act = .readBuf b a) → s.pending = act :: act :: rest →
    step s = .next t → step t = .next u →
    u.lastRead = t.lastRead ∧ u = { s with pending := rest, lastRead := u.lastRead }

/-- R196, R202 and R211: WCFE waits, unchanged, while the host makes no action, and a FAULTED state is quiescent. The
queue of actions, and that a quiescent state steps to itself, are the model's (log 2, log 3). -/
def Obligations.WaitsUnchangedAndFaultedIsQuiescent : Prop :=
  ∀ s : State, s.faulted ≠ none ∨ s.pending = [] → step s = .next s

/-! ### Reset -/

/-- R47: the state after reset, for every value of the parameters. The unspecified registers and bytes have their
written flags clear; the values behind clear flags are not stated. -/
def Obligations.ResetValues : Prop :=
  State.reset = State.resetWith Config.params ∧ 264 ≤ State.reset.params.rxCap ∧
  ∀ p : Params, ∀ s, s = State.resetWith p →
    (regView .cmd s).value = 0x00#32 ∧ s.status = 0x00#8 ∧ s.excode = 0x00#8 ∧ s.ctrl = 0x01#8 ∧
    s.txlen = 0x0000#16 ∧ s.expsize = 0x0000#16 ∧ s.payoff = 0x0000#16 ∧ s.paylen = 0x0000#16 ∧
    s.tidctr = p.tidInit ∧ s.desync = 0x00#8 ∧ s.endc = .unknown ∧ s.faulted = none ∧ s.params = p ∧
    (∀ r, r ∈ [RegName.val, .wb0, .wb1, .wb2, .wb3, .tidin, .unit, .start, .count, .efc, .rxlen] →
      (regView r s).written = false) ∧
    (∀ b a, Memory.read (bufferOf b s) a = none)

/-! ### Codec -/

/-- R105: ENC16. -/
def Obligations.Enc16Rule : Prop :=
  decodeCommand 0x01#8 = .enc16 ∧ ∀ s : State,
    (s.val.written = true → ∃ t, exec .enc16 s = .next t ∧
      t.wb0 = OperandReg.of (s.val.value.extractLsb' 8 8) ∧
      t.wb1 = OperandReg.of (s.val.value.extractLsb' 0 8) ∧
      t.status = 0x00#8 ∧ EndcCached s t ∧ SameRegsBut [.wb0, .wb1, .status] s t ∧ SameBuffers s t ∧
      SameSurroundings s t) ∧
    (s.val.written = false → FaultsOn .enc16 .enc16 s (.reg .val))

/-- R106 and R107: ENC32 and ENCF32 do the same to every bit pattern. -/
def Obligations.Enc32AndEncf32Rule : Prop :=
  decodeCommand 0x02#8 = .enc32 ∧ decodeCommand 0x03#8 = .encf32 ∧
  ∀ (s : State) (i : Instr), i = .enc32 ∨ i = .encf32 →
    (s.val.written = true → ∃ t, exec i s = .next t ∧
      t.wb0 = OperandReg.of (s.val.value.extractLsb' 24 8) ∧
      t.wb1 = OperandReg.of (s.val.value.extractLsb' 16 8) ∧
      t.wb2 = OperandReg.of (s.val.value.extractLsb' 8 8) ∧
      t.wb3 = OperandReg.of (s.val.value.extractLsb' 0 8) ∧
      t.status = 0x00#8 ∧ EndcCached s t ∧ SameRegsBut [.wb0, .wb1, .wb2, .wb3, .status] s t ∧
      SameBuffers s t ∧ SameSurroundings s t) ∧
    (s.val.written = false → FaultsOn i i s (.reg .val))

/-- R108: DEC16. -/
def Obligations.Dec16Rule : Prop :=
  decodeCommand 0x04#8 = .dec16 ∧ ∀ s : State,
    (s.wb0.written = true → s.wb1.written = true → ∃ t, exec .dec16 s = .next t ∧
      t.val = OperandReg.of ((s.wb0.value ++ s.wb1.value).setWidth 32) ∧
      t.status = 0x00#8 ∧ EndcCached s t ∧ SameRegsBut [.val, .status] s t ∧ SameBuffers s t ∧
      SameSurroundings s t) ∧
    (s.wb0.written = false → FaultsOn .dec16 .dec16 s (.reg .wb0)) ∧
    (s.wb0.written = true → s.wb1.written = false → FaultsOn .dec16 .dec16 s (.reg .wb1))

/-- R110 and R111: DEC32 and DECF32 do the same to every bit pattern. -/
def Obligations.Dec32AndDecf32Rule : Prop :=
  decodeCommand 0x05#8 = .dec32 ∧ decodeCommand 0x06#8 = .decf32 ∧
  ∀ (s : State) (i : Instr), i = .dec32 ∨ i = .decf32 →
    (s.wb0.written = true → s.wb1.written = true → s.wb2.written = true → s.wb3.written = true →
      ∃ t, exec i s = .next t ∧
        t.val = OperandReg.of (s.wb0.value ++ s.wb1.value ++ s.wb2.value ++ s.wb3.value) ∧
        t.status = 0x00#8 ∧ EndcCached s t ∧ SameRegsBut [.val, .status] s t ∧ SameBuffers s t ∧
        SameSurroundings s t) ∧
    (s.wb0.written = false → FaultsOn i i s (.reg .wb0)) ∧
    (s.wb0.written = true → s.wb1.written = false → FaultsOn i i s (.reg .wb1)) ∧
    (s.wb0.written = true → s.wb1.written = true → s.wb2.written = false → FaultsOn i i s (.reg .wb2)) ∧
    (s.wb0.written = true → s.wb1.written = true → s.wb2.written = true → s.wb3.written = false →
      FaultsOn i i s (.reg .wb3))

/-- The laws of 40_wire_codec.md section 4: encode then decode gives the value back, decode then encode the bytes, for
either byte order of the host. -/
def Obligations.CodecRoundTrip : Prop :=
  (∀ s : State, s.val.written = true →
    (∃ t u, exec .enc16 s = .next t ∧ exec .dec16 t = .next u ∧
      u.val = OperandReg.of ((s.val.value.extractLsb' 0 16).setWidth 32)) ∧
    (∃ t u, exec .enc32 s = .next t ∧ exec .dec32 t = .next u ∧ u.val = OperandReg.of s.val.value) ∧
    (∃ t u, exec .encf32 s = .next t ∧ exec .decf32 t = .next u ∧ u.val = OperandReg.of s.val.value)) ∧
  (∀ s : State, s.wb0.written = true → s.wb1.written = true →
    (∃ t u, exec .dec16 s = .next t ∧ exec .enc16 t = .next u ∧ u.wb0 = s.wb0 ∧ u.wb1 = s.wb1) ∧
    (s.wb2.written = true → s.wb3.written = true →
      ∃ t u, exec .dec32 s = .next t ∧ exec .enc32 t = .next u ∧
        u.wb0 = s.wb0 ∧ u.wb1 = s.wb1 ∧ u.wb2 = s.wb2 ∧ u.wb3 = s.wb3))

/-- 40_wire_codec.md section 1: on a host of either byte order the wire bytes are the value's bytes, most significant
first, and the value of wire bytes is their big-endian value. -/
def Obligations.WireBytesIgnoreHostByteOrder : Prop :=
  ∀ e : Endian,
    (∀ v : Half, wire16 e v = [v.extractLsb' 8 8, v.extractLsb' 0 8]) ∧
    (∀ v : Word, wire32 e v = [v.extractLsb' 24 8, v.extractLsb' 16 8, v.extractLsb' 8 8, v.extractLsb' 0 8]) ∧
    (∀ b0 b1 : Byte, value16 e [b0, b1] = b0 ++ b1) ∧
    (∀ b0 b1 b2 b3 : Byte, value32 e [b0, b1, b2, b3] = b0 ++ b1 ++ b2 ++ b3)

/-- No output of any instruction depends on HOST_ENDIAN or ENDC (00_scope.md section 3, 40_wire_codec.md section 1): on
two states that differ in them alone, the results differ in them alone. -/
def Obligations.NoOutputDependsOnHostByteOrder : Prop :=
  ∀ (i : Instr) (s : State) (h : Endian) (e : Endc), ∃ t e',
    exec i s = .next t ∧ exec i (withByteOrder h e s) = .next (withByteOrder h e' t)

/-- 40_wire_codec.md section 4: a codec command ends with STATUS 0x00 or raises UNWRITTEN; it changes neither DESYNC nor
any buffer nor any register of the frame engine. -/
def Obligations.CodecCommandsNeverFail : Prop :=
  ∀ (i : Instr) (s : State), i ∈ [Instr.enc16, .enc32, .encf32, .dec16, .dec32, .decf32] →
    ∃ t, exec i s = .next t ∧ (t.status = 0x00#8 ∨ ∃ what, FaultsOn i i s what) ∧ SameBuffers s t ∧
      SameRegsBut [.status, .val, .wb0, .wb1, .wb2, .wb3] s t

/-! ### Requests -/

/-- R120: BUILDRD. -/
def Obligations.BuildrdRule : Prop :=
  decodeCommand 0x10#8 = .buildrd ∧ ∀ s : State,
    RequestFaultsInOrder .buildrd s ∧
    (RequestOperandsWritten s → 127 < s.count.value.toNat → CountRejected .buildrd s) ∧
    (RequestOperandsWritten s → s.count.value.toNat ≤ 127 →
      RequestBuilt .buildrd s
        [s.tidin.value.extractLsb' 8 8, s.tidin.value.extractLsb' 0 8, 0x00#8, 0x00#8, 0x00#8, 0x06#8,
         s.unit.value, 0x03#8, s.start.value.extractLsb' 8 8, s.start.value.extractLsb' 0 8, 0x00#8, s.count.value]
        12 (9 + 2 * s.count.value.toNat))

/-- R124: BUILDWR, with the data bytes WDB[0] to WDB[2c-1] in order. -/
def Obligations.BuildwrRule : Prop :=
  decodeCommand 0x11#8 = .buildwr ∧ ∀ s : State,
    RequestFaultsInOrder .buildwr s ∧
    (RequestOperandsWritten s → 127 < s.count.value.toNat → CountRejected .buildwr s) ∧
    (∀ k, RequestOperandsWritten s → s.count.value.toNat ≤ 127 → k < 2 * s.count.value.toNat →
      Memory.read s.wdb k = none → (∀ j, j < k → (Memory.read s.wdb j).isSome = true) →
      FaultsOn .buildwr .buildwr s (.byte .wdb k)) ∧
    (RequestOperandsWritten s → s.count.value.toNat ≤ 127 → WriteDataWritten s → ∃ data : List Byte,
      (∀ k, k < 2 * s.count.value.toNat → Memory.read s.wdb k = data[k]?) ∧
      RequestBuilt .buildwr s
        ([s.tidin.value.extractLsb' 8 8, s.tidin.value.extractLsb' 0 8, 0x00#8, 0x00#8,
          (BitVec.ofNat 16 (7 + 2 * s.count.value.toNat)).extractLsb' 8 8,
          (BitVec.ofNat 16 (7 + 2 * s.count.value.toNat)).extractLsb' 0 8,
          s.unit.value, 0x10#8, s.start.value.extractLsb' 8 8, s.start.value.extractLsb' 0 8, 0x00#8, s.count.value,
          BitVec.ofNat 8 (2 * s.count.value.toNat)] ++ data)
        (13 + 2 * s.count.value.toNat) 12)

/-- R121: both builds reject COUNT above 127, WDB being neither read nor needed. -/
def Obligations.CountAbove127Rejected : Prop :=
  ∀ (i : Instr) (s : State), i = .buildrd ∨ i = .buildwr → RequestOperandsWritten s →
    127 < s.count.value.toNat → CountRejected i s

/-- 41_frame_build.md section 3: after an accepted build the length field is TXLEN - 6, bytes 0 and 1 are TIDIN, bytes 2
and 3 are zero, byte 7 is the function code, and TXLEN is 12 or 13 + 2c. -/
def Obligations.BuiltFrameLaws : Prop :=
  ∀ (i : Instr) (s t : State), i = .buildrd ∨ i = .buildwr → s.faulted = none → exec i s = .next t →
    t.faulted = none → t.status = 0x00#8 → ∃ b0 b1 b4 b5 : Byte,
      Memory.read t.txb 0 = some b0 ∧ Memory.read t.txb 1 = some b1 ∧ b0 ++ b1 = s.tidin.value ∧
      Memory.read t.txb 2 = some 0x00#8 ∧ Memory.read t.txb 3 = some 0x00#8 ∧
      Memory.read t.txb 4 = some b4 ∧ Memory.read t.txb 5 = some b5 ∧ (b4 ++ b5).toNat + 6 = t.txlen.toNat ∧
      (i = .buildrd → Memory.read t.txb 7 = some 0x03#8 ∧ t.txlen.toNat = 12) ∧
      (i = .buildwr → Memory.read t.txb 7 = some 0x10#8 ∧ t.txlen.toNat = 13 + 2 * s.count.value.toNat)

/-- 41_frame_build.md section 3: the builds neither read nor write TIDCTR, RXB, RXLEN, EFC, CTRL, EXCODE, PAYOFF,
PAYLEN, VAL or WB0 to WB3. -/
def Obligations.BuildsIgnoreReceiveSide : Prop :=
  ∀ (i : Instr) (s x : State), i = .buildrd ∨ i = .buildwr → ∃ t,
    exec i s = .next t ∧ withReceiveSideOf s t = t ∧
    exec i (withReceiveSideOf x s) = .next (withReceiveSideOf x t)

/-! ### Validation -/

/-- R141: BAD_ARGUMENT for an EFC that is not 0x03 or 0x10, and for RXLEN above RX_CAP. -/
def Obligations.ValidateArgumentCheck : Prop :=
  ∀ s : State, s.efc.written = true → s.rxlen.written = true →
    ((s.efc.value ≠ 0x03#8 ∧ s.efc.value ≠ 0x10#8) ∨ s.params.rxCap < s.rxlen.value.toNat) →
    FailsLocally .validate s 0x3A#8

/-- R142: FRAME_TRUNCATED below nine bytes. -/
def Obligations.ValidateTruncation : Prop :=
  ∀ s : State, ValidArguments s → s.rxlen.value.toNat < 9 → FailsFatally .validate s 0x62#8

/-- R143: the exception function code ends with DEVICE_EXCEPTION and EXCODE = RXB[8], whatever else the frame holds;
with the expected function code validation continues past steps 2 and 3. -/
def Obligations.ValidateDeviceException : Prop :=
  ∀ s : State, ValidArguments s → 9 ≤ s.rxlen.value.toNat →
    (∀ code, Received s 7 (s.efc.value ||| 0x80#8) → Received s 8 code →
      ValidateEndsWith .validate s 0x27#8 code 0#16 0#16 s.desync) ∧
    (Received s 7 s.efc.value → s.faulted = none →
      ∃ t, exec .validate s = .next t ∧ (t.faulted = none → t.status ≠ 0x27#8 ∧ t.status ≠ 0x63#8))

/-- R144: any other function code ends with UNEXPECTED_FUNCTION_CODE. -/
def Obligations.ValidateUnexpectedFunctionCode : Prop :=
  ∀ (s : State) (fc : Byte), ValidArguments s → 9 ≤ s.rxlen.value.toNat → Received s 7 fc →
    fc ≠ s.efc.value → fc ≠ s.efc.value ||| 0x80#8 → FailsFatally .validate s 0x63#8

/-- R145: with the expected function code, a frame shorter than its length field plus 6 ends with LENGTH_MISMATCH, on
unbounded integers, and one that is not passes this step. -/
def Obligations.ValidateLength : Prop :=
  ∀ (s : State) (b4 b5 : Byte), ValidArguments s → 9 ≤ s.rxlen.value.toNat → Received s 7 s.efc.value →
    Received s 4 b4 → Received s 5 b5 →
    (s.rxlen.value.toNat < (b4 ++ b5).toNat + 6 → FailsFatally .validate s 0x64#8) ∧
    ((b4 ++ b5).toNat + 6 ≤ s.rxlen.value.toNat → s.faulted = none →
      ∃ t, exec .validate s = .next t ∧ (t.faulted = none → t.status ≠ 0x64#8))

/-- R146: a read response whose size is not 9 + byte 8 ends with SIZE_MISMATCH, and step 5 stops nothing else. -/
def Obligations.ValidateReadSize : Prop :=
  ∀ (s : State) (b4 b5 bc : Byte), ValidArguments s → 9 ≤ s.rxlen.value.toNat → Received s 7 s.efc.value →
    Received s 4 b4 → Received s 5 b5 → (b4 ++ b5).toNat + 6 ≤ s.rxlen.value.toNat → Received s 8 bc →
    (s.efc.value = 0x03#8 → s.rxlen.value.toNat ≠ 9 + bc.toNat → FailsFatally .validate s 0x65#8) ∧
    (s.efc.value = 0x10#8 ∨ s.rxlen.value.toNat = 9 + bc.toNat → s.faulted = none →
      ∃ t, exec .validate s = .next t ∧ (t.faulted = none → t.status ≠ 0x65#8))

/-- R147: with TIDCHK = 1 a frame that passes steps 1 to 5 and whose bytes 0 and 1 are not TIDIN ends with
TRANSACTION_MISMATCH; with TIDCHK = 0 neither those bytes nor TIDIN are read and the frame succeeds. -/
def Obligations.ValidateTransactionId : Prop :=
  ∀ s : State, PassesSteps1To5 s →
    (∀ b0 b1, tidchk s.ctrl = true → s.tidin.written = true → Received s 0 b0 → Received s 1 b1 →
      b0 ++ b1 ≠ s.tidin.value → FailsFatally .validate s 0x66#8) ∧
    (tidchk s.ctrl = false → SucceedsWithSlice .validate s)

/-- R148: a frame that passes steps 1 to 6 ends with OK and the payload slice of its kind. -/
def Obligations.ValidateSuccess : Prop :=
  ∀ s : State, PassesSteps1To5 s → TransactionMatches s → SucceedsWithSlice .validate s

/-- R150: what each outcome of VALIDATE leaves in EXCODE, PAYOFF and PAYLEN. -/
def Obligations.ValidateResultRegisters : Prop :=
  ∀ s t : State, s.faulted = none → exec .validate s = .next t →
    (t.faulted ≠ none → t.excode = s.excode ∧ t.payoff = s.payoff ∧ t.paylen = s.paylen) ∧
    (t.faulted = none → t.status = 0x00#8 → s.efc.value = 0x03#8 →
      t.excode = 0x00#8 ∧ t.payoff = 9#16 ∧ ∃ bc, Received s 8 bc ∧ t.paylen.toNat = bc.toNat) ∧
    (t.faulted = none → t.status = 0x00#8 → s.efc.value = 0x10#8 →
      t.excode = 0x00#8 ∧ t.payoff = 8#16 ∧ t.paylen.toNat = s.rxlen.value.toNat - 8) ∧
    (t.faulted = none → t.status = 0x27#8 → Received s 8 t.excode ∧ t.payoff = 0#16 ∧ t.paylen = 0#16) ∧
    (t.faulted = none → t.status ≠ 0x00#8 → t.status ≠ 0x27#8 →
      t.excode = 0x00#8 ∧ t.payoff = 0#16 ∧ t.paylen = 0#16)

/-- 42_frame_validate.md section 3: of RXB, VALIDATE reads bytes 0, 1, 4, 5, 7 and 8 only, and it reads no request
register, no other buffer and no codec register: taking all of those from another state changes nothing of the outcome. -/
def Obligations.ValidateReadsNothingElse : Prop :=
  ∀ s x : State, (∀ a, a ∈ [0, 1, 4, 5, 7, 8] → Memory.read x.rxb a = Memory.read s.rxb a) → ∃ t,
    exec .validate s = .next t ∧ withUnvalidatedOf s t = t ∧
    exec .validate (withUnvalidatedOf x s) = .next (withUnvalidatedOf x t)

/-- The laws of 42_frame_validate.md section 3: when VALIDATE ends with DEVICE_EXCEPTION, and, past steps 1 to 5, when
with TRANSACTION_MISMATCH, otherwise with OK. -/
def Obligations.ValidateLaws : Prop :=
  ∀ s : State, s.faulted = none → ValidArguments s → ValidateBytesWritten s → s.tidin.written = true →
    ∃ t, exec .validate s = .next t ∧ t.faulted = none ∧
      (t.status = 0x27#8 ↔ 9 ≤ s.rxlen.value.toNat ∧ Received s 7 (s.efc.value ||| 0x80#8)) ∧
      (t.status = 0x27#8 → Received s 8 t.excode) ∧
      (PassesSteps1To5 s →
        (t.status = 0x66#8 ↔ tidchk s.ctrl = true ∧
          ∃ b0 b1, Received s 0 b0 ∧ Received s 1 b1 ∧ b0 ++ b1 ≠ s.tidin.value) ∧
        (t.status ≠ 0x66#8 → t.status = 0x00#8))

/-- The faults of VALIDATE in the order of 60_exceptions.md section 2: EFC, RXLEN, byte 7, byte 8 of an exception, bytes
4 and 5, byte 8 of a read, TIDIN, bytes 0 and 1. -/
def Obligations.ValidateFaultsInOrder : Prop :=
  ∀ s : State,
    (s.efc.written = false → FaultsOn .validate .validate s (.reg .efc)) ∧
    (s.efc.written = true → s.rxlen.written = false → FaultsOn .validate .validate s (.reg .rxlen)) ∧
    (ValidArguments s → 9 ≤ s.rxlen.value.toNat →
      (Memory.read s.rxb 7 = none → FaultsOn .validate .validate s (.byte .rxb 7)) ∧
      (Received s 7 (s.efc.value ||| 0x80#8) → Memory.read s.rxb 8 = none →
        FaultsOn .validate .validate s (.byte .rxb 8)) ∧
      (Received s 7 s.efc.value → Memory.read s.rxb 4 = none → FaultsOn .validate .validate s (.byte .rxb 4)) ∧
      (∀ b4, Received s 7 s.efc.value → Received s 4 b4 → Memory.read s.rxb 5 = none →
        FaultsOn .validate .validate s (.byte .rxb 5)) ∧
      (∀ b4 b5, Received s 7 s.efc.value → Received s 4 b4 → Received s 5 b5 →
        (b4 ++ b5).toNat + 6 ≤ s.rxlen.value.toNat → s.efc.value = 0x03#8 → Memory.read s.rxb 8 = none →
        FaultsOn .validate .validate s (.byte .rxb 8))) ∧
    (PassesSteps1To5 s → tidchk s.ctrl = true →
      (s.tidin.written = false → FaultsOn .validate .validate s (.reg .tidin)) ∧
      (s.tidin.written = true → Memory.read s.rxb 0 = none → FaultsOn .validate .validate s (.byte .rxb 0)) ∧
      (∀ b0, s.tidin.written = true → Received s 0 b0 → Memory.read s.rxb 1 = none →
        FaultsOn .validate .validate s (.byte .rxb 1)))

/-! ### Wire function codes -/

/-- 30_encoding.md section 3: VALIDATE on a frame whose byte 7 has been received runs as the wire instruction that byte
decodes to. That the rows of the function-code map are instructions of this meaning is the model's reading (log 1). -/
def Obligations.ValidateRunsTheWireFunctionCode : Prop :=
  ∀ (s : State) (b : Byte), Received s 7 b → exec .validate s = exec (decodeFunctionCode b) s

/-- 30_encoding.md section 3, the normal responses: the expected function code goes on to steps 4 to 6 and, when they
pass, to success with its payload slice; the other one is UNEXPECTED_FUNCTION_CODE. (Log 1.) -/
def Obligations.NormalFunctionCodes : Prop :=
  ∀ s : State, ValidArguments s → 9 ≤ s.rxlen.value.toNat →
    (s.efc.value = 0x03#8 → PassesLengthAndSize s → TransactionMatches s →
      SucceedsWithSlice .fcReadMultipleRegisters s) ∧
    (s.efc.value = 0x10#8 → PassesLengthAndSize s → TransactionMatches s →
      SucceedsWithSlice .fcWriteMultipleRegisters s) ∧
    (s.efc.value = 0x10#8 → FailsFatally .fcReadMultipleRegisters s 0x63#8) ∧
    (s.efc.value = 0x03#8 → FailsFatally .fcWriteMultipleRegisters s 0x63#8)

/-- 30_encoding.md section 3, the exceptions: the exception of the expected function code is DEVICE_EXCEPTION with byte 8
in EXCODE, the other one is UNEXPECTED_FUNCTION_CODE. (Log 1.) -/
def Obligations.ExceptionFunctionCodes : Prop :=
  ∀ (s : State) (code : Byte), ValidArguments s → 9 ≤ s.rxlen.value.toNat →
    (s.efc.value = 0x03#8 → Received s 8 code →
      ValidateEndsWith .fcExceptionRead s 0x27#8 code 0#16 0#16 s.desync) ∧
    (s.efc.value = 0x10#8 → Received s 8 code →
      ValidateEndsWith .fcExceptionWrite s 0x27#8 code 0#16 0#16 s.desync) ∧
    (s.efc.value = 0x10#8 → FailsFatally .fcExceptionRead s 0x63#8) ∧
    (s.efc.value = 0x03#8 → FailsFatally .fcExceptionWrite s 0x63#8)

/-- 30_encoding.md section 3, the rest: any other function code is UNEXPECTED_FUNCTION_CODE. (Log 1.) -/
def Obligations.OtherFunctionCodes : Prop :=
  ∀ (s : State) (code : Byte), (Instr.fcOther code).wf = true → ValidArguments s →
    9 ≤ s.rxlen.value.toNat → FailsFatally (.fcOther code) s 0x63#8

/-! ### Transaction ids and reserved opcodes -/

/-- R170: TIDNEXT. -/
def Obligations.TidnextRule : Prop :=
  decodeCommand 0x30#8 = .tidnext ∧ ∀ s : State, ∃ t, exec .tidnext s = .next t ∧
    t.tidin = OperandReg.of s.tidctr ∧ t.tidctr.toNat = (s.tidctr.toNat + 1) % 2 ^ 16 ∧ t.status = 0x00#8 ∧
    t.endc = s.endc ∧ SameRegsBut [.tidin, .tidctr, .status] s t ∧ SameBuffers s t ∧ SameSurroundings s t

/-- 10_state.md section 2 on TIDCTR: TIDNEXT advances it, and no other instruction changes it. -/
def Obligations.OnlyTidnextWritesTidctr : Prop :=
  ∀ (i : Instr) (s t : State), exec i s = .next t →
    t.tidctr = if i = .tidnext then s.tidctr + 1#16 else s.tidctr

/-- 43_transaction_id.md, the sequence: whatever the host does, after any number of steps the counter has advanced by
the number of TIDNEXTs among the actions taken, modulo 2^16. From reset it starts at TID_INIT, so the k-th TIDNEXT takes
TID_INIT + k. The queue of
actions is the model's (log 2). -/
def Obligations.TransactionIdSequence : Prop :=
  (∀ p : Params, (State.resetWith p).tidctr = p.tidInit) ∧
  ∀ (n : Nat) (s t : State), Host.Core.run core n s = .next t → ∃ taken : List HostAction,
    s.pending = taken ++ t.pending ∧ t.tidctr = s.tidctr + BitVec.ofNat 16 (tidnextCount taken)

/-- R190: BAD_COMMAND writes STATUS = 0x39 and nothing else. -/
def Obligations.BadCommandWritesOnlyStatus : Prop :=
  ∀ (op : Byte) (s : State), reservedOpcode op = true →
    runCommand op s = .next { s with status := 0x39#8 } ∧
    exec (.badCommand op) s = .next { s with status := 0x39#8 }

/-! ### Status, faults, whole-machine rules -/

/-- R182: the STATUS byte of every code, and its fields as R33 reads them. -/
def Obligations.StatusBytes : Prop :=
  statusByte .ok = 0x00#8 ∧ statusByte .encodingError = 0x31#8 ∧ statusByte .frameTruncated = 0x62#8 ∧
  statusByte .unexpectedFunctionCode = 0x63#8 ∧ statusByte .lengthMismatch = 0x64#8 ∧
  statusByte .sizeMismatch = 0x65#8 ∧ statusByte .transactionMismatch = 0x66#8 ∧
  statusByte .deviceException = 0x27#8 ∧ statusByte .transportError = 0x58#8 ∧
  statusByte .badCommand = 0x39#8 ∧ statusByte .badArgument = 0x3A#8 ∧
  ∀ c : StatusCode, statusCodeField (statusByte c) = codeOf c ∧ statusTierField (statusByte c) = tierOf c ∧
    statusFatalField (statusByte c) = fatalOf c ∧ (statusByte c).getLsbD 7 = false

/-- R183: a command that ends with finish leaves in STATUS a byte of R182's table, and LATCH set exactly as that byte's
FATAL bit says; only VALIDATE, with the function codes it meets, ends with a fatal code. -/
def Obligations.FinishSetsStatusAndLatch : Prop :=
  ∀ (i : Instr) (s t : State), s.faulted = none → exec i s = .next t → t.faulted = none →
    t.status ∈ possibleStatus ∧
    (statusFatalField t.status = true → t.desync = s.desync ||| 0x01#8) ∧
    (statusFatalField t.status = false → t.desync = s.desync) ∧
    (statusFatalField t.status = true → faultingCommand i = .validate)

/-- R180: every command ends in one of two ways, with a status or with Fault(UNWRITTEN). That a fault is a next
state with the mark is the model's reading (log 3). -/
def Obligations.EveryCommandEndsInOneOfTwoWays : Prop :=
  ∀ (i : Instr) (s : State),
    (∃ t, exec i s = .next t ∧ t.faulted = s.faulted ∧ t.status ∈ possibleStatus) ∨
    (∃ what, FaultsOn i (faultingCommand i) s what)

/-- R196: a fault names a place whose written flag is clear, writes nothing but the mark, and the mark and everything
else stay for ever. That a fault is a next state is the model's reading (log 3). -/
def Obligations.FaultWritesOnlyTheMark : Prop :=
  ∀ (i : Instr) (s t : State), s.faulted = none → exec i s = .next t → t.faulted ≠ none →
    (∃ what, Unwritten s what ∧
      t = { s with faulted := some { command := faultingCommand i, what := what } }) ∧
    ∀ n, Host.Core.run core n t = .next t

/-- R212: a command whose operands the host has written raises no fault. -/
def Obligations.WrittenOperandsNeverFault : Prop :=
  ∀ (i : Instr) (s : State),
    (i = .enc16 ∨ i = .enc32 ∨ i = .encf32) ∧ s.val.written = true ∨
    i = .dec16 ∧ s.wb0.written = true ∧ s.wb1.written = true ∨
    (i = .dec32 ∨ i = .decf32) ∧ s.wb0.written = true ∧ s.wb1.written = true ∧ s.wb2.written = true ∧
      s.wb3.written = true ∨
    i = .buildrd ∧ RequestOperandsWritten s ∨
    i = .buildwr ∧ RequestOperandsWritten s ∧ WriteDataWritten s ∨
    i = .validate ∧ s.efc.written = true ∧ s.rxlen.written = true ∧ ValidateBytesWritten s ∧
      (tidchk s.ctrl = true → s.tidin.written = true) ∨
    i = .tidnext →
    ∃ t, exec i s = .next t ∧ t.faulted = s.faulted ∧ t.status ∈ possibleStatus

/-- 10_state.md section 2 on DESYNC: no step clears LATCH, and LATCH never affects what a command does. -/
def Obligations.LatchIsStickyAndInert : Prop :=
  (∀ s t : State, step s = .next t → desyncLatch s.desync = true → desyncLatch t.desync = true) ∧
  (∀ (i : Instr) (s : State) (d : Byte), ∃ t d',
    exec i s = .next t ∧ exec i { s with desync := d } = .next { t with desync := d' })

/-- Who writes which buffer (20_memory.md section 1): no instruction writes RXB or WDB, and only the builds write TXB;
none changes the host's side or the parameters. -/
def Obligations.InstructionsKeepForeignState : Prop :=
  ∀ (i : Instr) (s t : State), exec i s = .next t →
    SameBytes .rxb s t ∧ SameBytes .wdb s t ∧ (i ≠ .buildrd → i ≠ .buildwr → SameBytes .txb s t) ∧
    t.params = s.params ∧ t.pending = s.pending ∧ t.lastRead = s.lastRead ∧ t.drawSeed = s.drawSeed

/-- Every step keeps the invariant of Safety.lean, in every state that has it. -/
def Obligations.StepKeepsInvariant : Prop :=
  ∀ s t : State, MachineInv s → step s = .next t → MachineInv t

/-- The invariant holds right after reset, for every RX_CAP the spec allows. -/
def Obligations.ResetMeetsInvariant : Prop :=
  MachineInv State.reset ∧ ∀ p : Params, 264 ≤ p.rxCap → MachineInv (State.resetWith p)

/-! ### One exchange -/

/-- 70_reset_and_hazards.md section 2, steps 1 to 3 of an exchange: with COUNT above 127 the host stops with STATUS 0x31
and sends nothing, whatever the transport, for an id of either source and for a read and a write. The data of a write fit
WDB. The form of an exchange is the model's (log 16). -/
def Obligations.RejectedExchangeSendsNothing : Prop :=
  ∀ (r : ExchangeRequest) (transport : List Byte → TransportReport) (s : State), s.faulted = none →
    127 < r.count.toNat → (∀ data, r.kind = .write data → data.length ≤ 254) →
    ∃ t, exchange r transport s = .next (t, .notSent 0x31#8) ∧ t.txlen = 0#16 ∧ SameBytes .txb s t ∧ SameBytes .rxb s t

/-- 70_reset_and_hazards.md section 2, step 3 of an exchange: the host sends exactly TXB[0..TXLEN-1], and only if STATUS
is OK; WCFE is left as it was, but for the model's record of what the host read (log 8, log 16). -/
def Obligations.ExchangeSendsWhatWasBuilt : Prop :=
  ∀ (f : Byte) (transport : List Byte → TransportReport) (s : State), s.faulted = none →
    (statusCodeField s.status ≠ codeOf .ok → sendRequest f transport s = .next (s, .notSent s.status)) ∧
    (∀ sent : List Byte, statusCodeField s.status = codeOf .ok → s.txlen.toNat ≤ 267 →
      sent.length = s.txlen.toNat → (∀ a, a < s.txlen.toNat → Memory.read s.txb a = sent[a]?) →
      ∃ x, sendRequest f transport s = continueAfterTransport f (transport sent) { s with lastRead := x })

/-- 70_reset_and_hazards.md section 2, step 5 of an exchange: after OK the payload is RXB[PAYOFF..PAYOFF+PAYLEN-1], after
DEVICE_EXCEPTION the host has EXCODE, after another FATAL status it abandons the connection; WCFE is left as it was, but
for the model's record of what the host read (log 8). After any other status the spec says nothing, and that the host
does nothing more is the model's choice (log 16). -/
def Obligations.ExchangeEndsByStatus : Prop :=
  ∀ s : State, s.faulted = none →
    (∀ bytes : List Byte, statusCodeField s.status = codeOf .ok → s.payoff.toNat + s.paylen.toNat ≤ s.params.rxCap →
      bytes.length = s.paylen.toNat →
      (∀ k, k < s.paylen.toNat → Memory.read s.rxb (s.payoff.toNat + k) = bytes[k]?) →
      ∃ x, finishExchange s = .next ({ s with lastRead := x }, .payload bytes)) ∧
    (statusCodeField s.status = codeOf .deviceException →
      ∃ x, finishExchange s = .next ({ s with lastRead := x }, .exception s.excode)) ∧
    (statusCodeField s.status ≠ codeOf .ok → statusCodeField s.status ≠ codeOf .deviceException →
      (statusFatalField s.status = true → finishExchange s = .next (s, .abandoned s.status)) ∧
      (statusFatalField s.status = false → finishExchange s = .next (s, .failed s.status)))
end

