-- ==== Sys2Proof/Laws/Memory.lean ====
section
/-!
SUPPORT. The laws of the buffer operations: a read after a write, after several writes, and the canonical form that
every operation keeps.
-/
namespace Sys2Proof.Machine

@[simp] theorem Memory.read_nil (a : Nat) : Memory.read [] a = none := rfl

/-- A read at the address just written gives the byte written. -/
@[simp] theorem Memory.read_write_same (m : Memory) (a : Nat) (b : Byte) :
    Memory.read (Memory.write m a b) a = some b := by
  induction m with
  | nil => simp [Memory.write, Memory.read]
  | cons cell rest ih =>
    obtain ⟨k, v⟩ := cell
    unfold Memory.write
    split
    · simp [Memory.read]
    · split
      · simp [Memory.read]
      · next hne => simp [Memory.read, hne, ih]

/-- A write leaves every other address alone. -/
theorem Memory.read_write_other (m : Memory) {a x : Nat} (b : Byte) (h : x ≠ a) :
    Memory.read (Memory.write m a b) x = Memory.read m x := by
  have h' : a ≠ x := fun e => h e.symm
  induction m with
  | nil => simp [Memory.write, Memory.read, h']
  | cons cell rest ih =>
    obtain ⟨k, v⟩ := cell
    unfold Memory.write
    split
    · simp [Memory.read, h']
    · split
      · next heq => subst heq; simp [Memory.read, h']
      · simp only [Memory.read, ih]

theorem Memory.writeBytes_nil (m : Memory) (a : Nat) : Memory.writeBytes m a [] = m := rfl

/-- A write of bytes leaves the addresses below and above them alone. -/
theorem Memory.read_writeBytes_outside (bs : List Byte) (m : Memory) (a x : Nat)
    (h : x < a ∨ a + bs.length ≤ x) : Memory.read (Memory.writeBytes m a bs) x = Memory.read m x := by
  induction bs generalizing m a with
  | nil => rfl
  | cons b rest ih =>
    simp only [List.length_cons] at h
    rw [Memory.writeBytes, ih _ _ (by omega), Memory.read_write_other _ _ (by omega)]

/-- A read of the k-th byte written by a write of bytes. -/
theorem Memory.read_writeBytes_inside (bs : List Byte) (m : Memory) (a k : Nat) (h : k < bs.length) :
    Memory.read (Memory.writeBytes m a bs) (a + k) = bs[k]? := by
  induction bs generalizing m a k with
  | nil => simp at h
  | cons b rest ih =>
    cases k with
    | zero =>
      rw [Memory.writeBytes, Memory.read_writeBytes_outside _ _ _ _ (by omega)]
      simp
    | succ k =>
      have e : a + (k + 1) = a + 1 + k := by omega
      rw [Memory.writeBytes, e, ih _ _ _ (by simpa using h)]
      simp

/-- Everything a write of bytes at address 0 does to a read. -/
theorem Memory.read_writeBytes_zero (bs : List Byte) (m : Memory) (x : Nat) :
    Memory.read (Memory.writeBytes m 0 bs) x = if x < bs.length then bs[x]? else Memory.read m x := by
  split
  · next h => simpa using Memory.read_writeBytes_inside bs m 0 x h
  · next h => exact Memory.read_writeBytes_outside bs m 0 x (by omega)

/-! ### The canonical form -/

theorem Memory.risingFrom_write (m : Memory) (lo a : Nat) (b : Byte) (hm : Memory.risingFrom lo m = true)
    (ha : lo ≤ a) : Memory.risingFrom lo (Memory.write m a b) = true := by
  induction m generalizing lo with
  | nil => simp [Memory.write, Memory.risingFrom, ha]
  | cons cell rest ih =>
    obtain ⟨k, v⟩ := cell
    simp only [Memory.risingFrom, Bool.and_eq_true, decide_eq_true_eq] at hm
    unfold Memory.write
    split
    · next hlt => simp [Memory.risingFrom, ha, hlt, hm.2]
    · split
      · next heq => subst heq; simp [Memory.risingFrom, ha, hm.2]
      · next h1 h2 => simp [Memory.risingFrom, hm.1, ih (k + 1) hm.2 (by omega)]

/-- A write keeps the canonical form. -/
theorem Memory.wf_write (m : Memory) (a : Nat) (b : Byte) (h : Memory.wf m = true) :
    Memory.wf (Memory.write m a b) = true :=
  Memory.risingFrom_write m 0 a b h (Nat.zero_le a)

/-- A write below the capacity keeps every address below it. -/
theorem Memory.within_write (m : Memory) (capacity a : Nat) (b : Byte) (h : Memory.within capacity m = true)
    (ha : a < capacity) : Memory.within capacity (Memory.write m a b) = true := by
  induction m with
  | nil => simp [Memory.write, Memory.within, ha]
  | cons cell rest ih =>
    obtain ⟨k, v⟩ := cell
    simp only [Memory.within, List.all_cons, Bool.and_eq_true, decide_eq_true_eq] at h ih
    unfold Memory.write
    split
    · simpa [Memory.within, ha] using h
    · split
      · simpa [Memory.within, ha] using h.2
      · have := ih h.2
        simpa [Memory.within, h.1] using this

/-- A write of bytes keeps the canonical form. -/
theorem Memory.wf_writeBytes (bs : List Byte) (m : Memory) (a : Nat) (h : Memory.wf m = true) :
    Memory.wf (Memory.writeBytes m a bs) = true := by
  induction bs generalizing m a with
  | nil => exact h
  | cons b rest ih => exact ih _ _ (Memory.wf_write m a b h)

/-- A write of bytes that end below the capacity keeps every address below it. -/
theorem Memory.within_writeBytes (bs : List Byte) (m : Memory) (capacity a : Nat)
    (h : Memory.within capacity m = true) (ha : a + bs.length ≤ capacity) :
    Memory.within capacity (Memory.writeBytes m a bs) = true := by
  induction bs generalizing m a with
  | nil => exact h
  | cons b rest ih =>
    simp only [List.length_cons] at ha
    exact ih _ _ (Memory.within_write m capacity a b h (by omega)) (by omega)

/-- The buffers of a new instance are canonical. -/
theorem reset_buffers_wf (b : Buffer) : Memory.wf (bufferOf b State.reset) = true := by
  cases b <;> rfl

end Sys2Proof.Machine
end

