-- ==== Sys2Proof/Laws/Operands.lean ====
section
/-!
SUPPORT. What each operand read can do, said once: it gives the value where the register or byte has been written, and
stops at the first one that has not.
-/
namespace Sys2Proof.Machine

@[simp] theorem readReg_of_written {w : Nat} {name : RegName} {r : OperandReg w} (h : r.written = true) :
    readReg name r = .ok r.value := by simp [readReg, h]

@[simp] theorem readReg_of_unwritten {w : Nat} {name : RegName} {r : OperandReg w} (h : r.written = false) :
    readReg name r = .error (.reg name) := by simp [readReg, h]

theorem readReg_cases {w : Nat} (name : RegName) (r : OperandReg w) :
    (r.written = true ∧ readReg name r = .ok r.value) ∨
      (r.written = false ∧ readReg name r = .error (.reg name)) := by
  cases h : r.written <;> simp [readReg, h]

theorem readByte_of_written {b : Buffer} {a : Nat} {s : State} {v : Byte}
    (h : Memory.read (bufferOf b s) a = some v) : readByte b a s = .ok v := by simp [readByte, h]

theorem readByte_of_unwritten {b : Buffer} {a : Nat} {s : State}
    (h : Memory.read (bufferOf b s) a = none) : readByte b a s = .error (.byte b a) := by simp [readByte, h]

theorem readByte_cases (b : Buffer) (a : Nat) (s : State) :
    (∃ v, Memory.read (bufferOf b s) a = some v ∧ readByte b a s = .ok v) ∨
      (Memory.read (bufferOf b s) a = none ∧ readByte b a s = .error (.byte b a)) := by
  cases h : Memory.read (bufferOf b s) a with
  | none => exact .inr ⟨rfl, readByte_of_unwritten h⟩
  | some v => exact .inl ⟨v, rfl, readByte_of_written h⟩

theorem readHalf_of_written {b : Buffer} {a : Nat} {s : State} {v0 v1 : Byte}
    (h0 : Memory.read (bufferOf b s) a = some v0) (h1 : Memory.read (bufferOf b s) (a + 1) = some v1) :
    readHalf b a s = .ok (joinBE16 v0 v1) := by
  simp [readHalf, readByte_of_written h0, readByte_of_written h1, bind, Except.bind, pure, Except.pure]

/-- Everything a two-byte read can do. -/
theorem readHalf_cases (b : Buffer) (a : Nat) (s : State) :
    (∃ v0 v1, Memory.read (bufferOf b s) a = some v0 ∧ Memory.read (bufferOf b s) (a + 1) = some v1 ∧
        readHalf b a s = .ok (joinBE16 v0 v1)) ∨
      (Memory.read (bufferOf b s) a = none ∧ readHalf b a s = .error (.byte b a)) ∨
      ((Memory.read (bufferOf b s) a).isSome = true ∧ Memory.read (bufferOf b s) (a + 1) = none ∧
        readHalf b a s = .error (.byte b (a + 1))) := by
  rcases readByte_cases b a s with ⟨v0, h0, e0⟩ | ⟨h0, e0⟩
  · rcases readByte_cases b (a + 1) s with ⟨v1, h1, e1⟩ | ⟨h1, e1⟩
    · exact .inl ⟨v0, v1, h0, h1, readHalf_of_written h0 h1⟩
    · exact .inr (.inr ⟨by simp [h0], h1, by simp [readHalf, e0, e1, bind, Except.bind]⟩)
  · exact .inr (.inl ⟨h0, by simp [readHalf, e0, bind, Except.bind]⟩)

/-- A read of n bytes gives n bytes, the k-th of them the byte at a + k. -/
theorem readBytes_ok {b : Buffer} {s : State} {n a : Nat} {data : List Byte} (h : readBytes b a n s = .ok data) :
    data.length = n ∧ ∀ k, k < n → Memory.read (bufferOf b s) (a + k) = data[k]? := by
  induction n generalizing a data with
  | zero => simp only [readBytes, Except.ok.injEq] at h; subst h; simp
  | succ n ih =>
    rcases readByte_cases b a s with ⟨v, hv, ev⟩ | ⟨-, ev⟩
    · cases hr : readBytes b (a + 1) n s with
      | error what => simp [readBytes, ev, hr, bind, Except.bind] at h
      | ok rest =>
        simp only [readBytes, ev, hr, bind, Except.bind, pure, Except.pure, Except.ok.injEq] at h
        subst h
        obtain ⟨hlen, hread⟩ := ih hr
        refine ⟨by simp [hlen], fun k hk => ?_⟩
        cases k with
        | zero => simpa using hv
        | succ k =>
          have := hread k (by omega)
          simpa [Nat.add_assoc, Nat.add_comm 1 k] using this
    · simp [readBytes, ev, bind, Except.bind] at h

/-- A read of bytes that have all been written succeeds. -/
theorem readBytes_of_written {b : Buffer} {s : State} {n a : Nat}
    (h : ∀ k, k < n → (Memory.read (bufferOf b s) (a + k)).isSome = true) :
    ∃ data, readBytes b a n s = .ok data := by
  induction n generalizing a with
  | zero => exact ⟨[], rfl⟩
  | succ n ih =>
    obtain ⟨v, hv⟩ := Option.isSome_iff_exists.mp (h 0 (by omega))
    obtain ⟨rest, hr⟩ := ih (a := a + 1) (fun k hk => by
      have := h (k + 1) (by omega)
      simpa [Nat.add_assoc, Nat.add_comm 1 k] using this)
    exact ⟨v :: rest, by simp [readBytes, readByte_of_written (show Memory.read (bufferOf b s) a = some v by simpa using hv), hr, bind, Except.bind, pure, Except.pure]⟩

/-- A read of bytes that stops, stops at the lowest unwritten one. -/
theorem readBytes_error {b : Buffer} {s : State} {n a : Nat} {what : Place} (h : readBytes b a n s = .error what) :
    ∃ k, k < n ∧ what = .byte b (a + k) ∧ Memory.read (bufferOf b s) (a + k) = none ∧
      ∀ j, j < k → (Memory.read (bufferOf b s) (a + j)).isSome = true := by
  induction n generalizing a with
  | zero => simp [readBytes] at h
  | succ n ih =>
    rcases readByte_cases b a s with ⟨v, hv, ev⟩ | ⟨hn, ev⟩
    · cases hr : readBytes b (a + 1) n s with
      | ok rest => simp [readBytes, ev, hr, bind, Except.bind, pure, Except.pure] at h
      | error w =>
        simp only [readBytes, ev, hr, bind, Except.bind, Except.error.injEq] at h
        subst h
        obtain ⟨k, hk, hw, hnone, hsome⟩ := ih hr
        refine ⟨k + 1, by omega, by rw [hw]; congr 1; omega, ?_, fun j hj => ?_⟩
        · simpa [Nat.add_assoc, Nat.add_comm 1 k] using hnone
        · cases j with
          | zero => simp [hv]
          | succ j =>
            have := hsome j (by omega)
            simpa [Nat.add_assoc, Nat.add_comm 1 j] using this
    · simp only [readBytes, ev, bind, Except.bind, Except.error.injEq] at h
      exact ⟨0, by omega, by simp [h], by simpa using hn, fun j hj => by omega⟩

/-- Everything the four operand reads of a request can do (R188). -/
theorem readRequestOperands_of_written {s : State} (h0 : s.tidin.written = true) (h1 : s.unit.written = true)
    (h2 : s.start.written = true) (h3 : s.count.written = true) :
    readRequestOperands s = .ok ⟨s.tidin.value, s.unit.value, s.start.value, s.count.value⟩ := by
  simp [readRequestOperands, h0, h1, h2, h3, bind, Except.bind, pure, Except.pure]

/-- Operands that are read have been written, and are the registers' values. -/
theorem readRequestOperands_ok {s : State} {o : RequestOperands} (h : readRequestOperands s = .ok o) :
    (s.tidin.written = true ∧ s.unit.written = true ∧ s.start.written = true ∧ s.count.written = true) ∧
      o = ⟨s.tidin.value, s.unit.value, s.start.value, s.count.value⟩ := by
  rcases readReg_cases .tidin s.tidin with ⟨h0, e0⟩ | ⟨-, e0⟩
  · rcases readReg_cases .unit s.unit with ⟨h1, e1⟩ | ⟨-, e1⟩
    · rcases readReg_cases .start s.start with ⟨h2, e2⟩ | ⟨-, e2⟩
      · rcases readReg_cases .count s.count with ⟨h3, e3⟩ | ⟨-, e3⟩
        · rw [readRequestOperands_of_written h0 h1 h2 h3, Except.ok.injEq] at h
          exact ⟨⟨h0, h1, h2, h3⟩, h.symm⟩
        · simp [readRequestOperands, e0, e1, e2, e3, bind, Except.bind] at h
      · simp [readRequestOperands, e0, e1, e2, bind, Except.bind] at h
    · simp [readRequestOperands, e0, e1, bind, Except.bind] at h
  · simp [readRequestOperands, e0, bind, Except.bind] at h

end Sys2Proof.Machine
end

