-- ==== Sys2Proof/Laws/State.lean ====
section
/-!
SUPPORT. One lemma per field per update of State: what each named update leaves in each field. Later proofs cite these
through simp and unfold no record.
-/
namespace Sys2Proof.Machine

/-! ### finish -/

@[simp] theorem finish_status (c : StatusCode) (s : State) :
    (finish c s).status = statusByte c := rfl
@[simp] theorem finish_excode (c : StatusCode) (s : State) :
    (finish c s).excode = s.excode := rfl
@[simp] theorem finish_ctrl (c : StatusCode) (s : State) :
    (finish c s).ctrl = s.ctrl := rfl
@[simp] theorem finish_val (c : StatusCode) (s : State) :
    (finish c s).val = s.val := rfl
@[simp] theorem finish_wb0 (c : StatusCode) (s : State) :
    (finish c s).wb0 = s.wb0 := rfl
@[simp] theorem finish_wb1 (c : StatusCode) (s : State) :
    (finish c s).wb1 = s.wb1 := rfl
@[simp] theorem finish_wb2 (c : StatusCode) (s : State) :
    (finish c s).wb2 = s.wb2 := rfl
@[simp] theorem finish_wb3 (c : StatusCode) (s : State) :
    (finish c s).wb3 = s.wb3 := rfl
@[simp] theorem finish_tidin (c : StatusCode) (s : State) :
    (finish c s).tidin = s.tidin := rfl
@[simp] theorem finish_unit (c : StatusCode) (s : State) :
    (finish c s).unit = s.unit := rfl
@[simp] theorem finish_start (c : StatusCode) (s : State) :
    (finish c s).start = s.start := rfl
@[simp] theorem finish_count (c : StatusCode) (s : State) :
    (finish c s).count = s.count := rfl
@[simp] theorem finish_efc (c : StatusCode) (s : State) :
    (finish c s).efc = s.efc := rfl
@[simp] theorem finish_rxlen (c : StatusCode) (s : State) :
    (finish c s).rxlen = s.rxlen := rfl
@[simp] theorem finish_txlen (c : StatusCode) (s : State) :
    (finish c s).txlen = s.txlen := rfl
@[simp] theorem finish_expsize (c : StatusCode) (s : State) :
    (finish c s).expsize = s.expsize := rfl
@[simp] theorem finish_payoff (c : StatusCode) (s : State) :
    (finish c s).payoff = s.payoff := rfl
@[simp] theorem finish_paylen (c : StatusCode) (s : State) :
    (finish c s).paylen = s.paylen := rfl
@[simp] theorem finish_tidctr (c : StatusCode) (s : State) :
    (finish c s).tidctr = s.tidctr := rfl
@[simp] theorem finish_desync (c : StatusCode) (s : State) :
    (finish c s).desync = desyncAfter c s.desync := rfl
@[simp] theorem finish_endc (c : StatusCode) (s : State) :
    (finish c s).endc = s.endc := rfl
@[simp] theorem finish_txb (c : StatusCode) (s : State) :
    (finish c s).txb = s.txb := rfl
@[simp] theorem finish_rxb (c : StatusCode) (s : State) :
    (finish c s).rxb = s.rxb := rfl
@[simp] theorem finish_wdb (c : StatusCode) (s : State) :
    (finish c s).wdb = s.wdb := rfl
@[simp] theorem finish_faulted (c : StatusCode) (s : State) :
    (finish c s).faulted = s.faulted := rfl
@[simp] theorem finish_params (c : StatusCode) (s : State) :
    (finish c s).params = s.params := rfl
@[simp] theorem finish_pending (c : StatusCode) (s : State) :
    (finish c s).pending = s.pending := rfl
@[simp] theorem finish_lastRead (c : StatusCode) (s : State) :
    (finish c s).lastRead = s.lastRead := rfl
@[simp] theorem finish_drawSeed (c : StatusCode) (s : State) :
    (finish c s).drawSeed = s.drawSeed := rfl

/-! ### raiseUnwritten -/

@[simp] theorem raiseUnwritten_status (i : Instr) (what : Place) (s : State) :
    (raiseUnwritten i what s).status = s.status := rfl
@[simp] theorem raiseUnwritten_excode (i : Instr) (what : Place) (s : State) :
    (raiseUnwritten i what s).excode = s.excode := rfl
@[simp] theorem raiseUnwritten_ctrl (i : Instr) (what : Place) (s : State) :
    (raiseUnwritten i what s).ctrl = s.ctrl := rfl
@[simp] theorem raiseUnwritten_val (i : Instr) (what : Place) (s : State) :
    (raiseUnwritten i what s).val = s.val := rfl
@[simp] theorem raiseUnwritten_wb0 (i : Instr) (what : Place) (s : State) :
    (raiseUnwritten i what s).wb0 = s.wb0 := rfl
@[simp] theorem raiseUnwritten_wb1 (i : Instr) (what : Place) (s : State) :
    (raiseUnwritten i what s).wb1 = s.wb1 := rfl
@[simp] theorem raiseUnwritten_wb2 (i : Instr) (what : Place) (s : State) :
    (raiseUnwritten i what s).wb2 = s.wb2 := rfl
@[simp] theorem raiseUnwritten_wb3 (i : Instr) (what : Place) (s : State) :
    (raiseUnwritten i what s).wb3 = s.wb3 := rfl
@[simp] theorem raiseUnwritten_tidin (i : Instr) (what : Place) (s : State) :
    (raiseUnwritten i what s).tidin = s.tidin := rfl
@[simp] theorem raiseUnwritten_unit (i : Instr) (what : Place) (s : State) :
    (raiseUnwritten i what s).unit = s.unit := rfl
@[simp] theorem raiseUnwritten_start (i : Instr) (what : Place) (s : State) :
    (raiseUnwritten i what s).start = s.start := rfl
@[simp] theorem raiseUnwritten_count (i : Instr) (what : Place) (s : State) :
    (raiseUnwritten i what s).count = s.count := rfl
@[simp] theorem raiseUnwritten_efc (i : Instr) (what : Place) (s : State) :
    (raiseUnwritten i what s).efc = s.efc := rfl
@[simp] theorem raiseUnwritten_rxlen (i : Instr) (what : Place) (s : State) :
    (raiseUnwritten i what s).rxlen = s.rxlen := rfl
@[simp] theorem raiseUnwritten_txlen (i : Instr) (what : Place) (s : State) :
    (raiseUnwritten i what s).txlen = s.txlen := rfl
@[simp] theorem raiseUnwritten_expsize (i : Instr) (what : Place) (s : State) :
    (raiseUnwritten i what s).expsize = s.expsize := rfl
@[simp] theorem raiseUnwritten_payoff (i : Instr) (what : Place) (s : State) :
    (raiseUnwritten i what s).payoff = s.payoff := rfl
@[simp] theorem raiseUnwritten_paylen (i : Instr) (what : Place) (s : State) :
    (raiseUnwritten i what s).paylen = s.paylen := rfl
@[simp] theorem raiseUnwritten_tidctr (i : Instr) (what : Place) (s : State) :
    (raiseUnwritten i what s).tidctr = s.tidctr := rfl
@[simp] theorem raiseUnwritten_desync (i : Instr) (what : Place) (s : State) :
    (raiseUnwritten i what s).desync = s.desync := rfl
@[simp] theorem raiseUnwritten_endc (i : Instr) (what : Place) (s : State) :
    (raiseUnwritten i what s).endc = s.endc := rfl
@[simp] theorem raiseUnwritten_txb (i : Instr) (what : Place) (s : State) :
    (raiseUnwritten i what s).txb = s.txb := rfl
@[simp] theorem raiseUnwritten_rxb (i : Instr) (what : Place) (s : State) :
    (raiseUnwritten i what s).rxb = s.rxb := rfl
@[simp] theorem raiseUnwritten_wdb (i : Instr) (what : Place) (s : State) :
    (raiseUnwritten i what s).wdb = s.wdb := rfl
@[simp] theorem raiseUnwritten_faulted (i : Instr) (what : Place) (s : State) :
    (raiseUnwritten i what s).faulted = some ⟨i, what⟩ := rfl
@[simp] theorem raiseUnwritten_params (i : Instr) (what : Place) (s : State) :
    (raiseUnwritten i what s).params = s.params := rfl
@[simp] theorem raiseUnwritten_pending (i : Instr) (what : Place) (s : State) :
    (raiseUnwritten i what s).pending = s.pending := rfl
@[simp] theorem raiseUnwritten_lastRead (i : Instr) (what : Place) (s : State) :
    (raiseUnwritten i what s).lastRead = s.lastRead := rfl
@[simp] theorem raiseUnwritten_drawSeed (i : Instr) (what : Place) (s : State) :
    (raiseUnwritten i what s).drawSeed = s.drawSeed := rfl

/-! ### determineEndian -/

@[simp] theorem determineEndian_status (s : State) :
    (determineEndian s).status = s.status := rfl
@[simp] theorem determineEndian_excode (s : State) :
    (determineEndian s).excode = s.excode := rfl
@[simp] theorem determineEndian_ctrl (s : State) :
    (determineEndian s).ctrl = s.ctrl := rfl
@[simp] theorem determineEndian_val (s : State) :
    (determineEndian s).val = s.val := rfl
@[simp] theorem determineEndian_wb0 (s : State) :
    (determineEndian s).wb0 = s.wb0 := rfl
@[simp] theorem determineEndian_wb1 (s : State) :
    (determineEndian s).wb1 = s.wb1 := rfl
@[simp] theorem determineEndian_wb2 (s : State) :
    (determineEndian s).wb2 = s.wb2 := rfl
@[simp] theorem determineEndian_wb3 (s : State) :
    (determineEndian s).wb3 = s.wb3 := rfl
@[simp] theorem determineEndian_tidin (s : State) :
    (determineEndian s).tidin = s.tidin := rfl
@[simp] theorem determineEndian_unit (s : State) :
    (determineEndian s).unit = s.unit := rfl
@[simp] theorem determineEndian_start (s : State) :
    (determineEndian s).start = s.start := rfl
@[simp] theorem determineEndian_count (s : State) :
    (determineEndian s).count = s.count := rfl
@[simp] theorem determineEndian_efc (s : State) :
    (determineEndian s).efc = s.efc := rfl
@[simp] theorem determineEndian_rxlen (s : State) :
    (determineEndian s).rxlen = s.rxlen := rfl
@[simp] theorem determineEndian_txlen (s : State) :
    (determineEndian s).txlen = s.txlen := rfl
@[simp] theorem determineEndian_expsize (s : State) :
    (determineEndian s).expsize = s.expsize := rfl
@[simp] theorem determineEndian_payoff (s : State) :
    (determineEndian s).payoff = s.payoff := rfl
@[simp] theorem determineEndian_paylen (s : State) :
    (determineEndian s).paylen = s.paylen := rfl
@[simp] theorem determineEndian_tidctr (s : State) :
    (determineEndian s).tidctr = s.tidctr := rfl
@[simp] theorem determineEndian_desync (s : State) :
    (determineEndian s).desync = s.desync := rfl
@[simp] theorem determineEndian_endc (s : State) :
    (determineEndian s).endc = cacheOf (codecEndian s) := rfl
@[simp] theorem determineEndian_txb (s : State) :
    (determineEndian s).txb = s.txb := rfl
@[simp] theorem determineEndian_rxb (s : State) :
    (determineEndian s).rxb = s.rxb := rfl
@[simp] theorem determineEndian_wdb (s : State) :
    (determineEndian s).wdb = s.wdb := rfl
@[simp] theorem determineEndian_faulted (s : State) :
    (determineEndian s).faulted = s.faulted := rfl
@[simp] theorem determineEndian_params (s : State) :
    (determineEndian s).params = s.params := rfl
@[simp] theorem determineEndian_pending (s : State) :
    (determineEndian s).pending = s.pending := rfl
@[simp] theorem determineEndian_lastRead (s : State) :
    (determineEndian s).lastRead = s.lastRead := rfl
@[simp] theorem determineEndian_drawSeed (s : State) :
    (determineEndian s).drawSeed = s.drawSeed := rfl

/-! ### writeLanes -/

@[simp] theorem writeLanes_status (w : List Byte) (s : State) :
    (writeLanes w s).status = s.status := rfl
@[simp] theorem writeLanes_excode (w : List Byte) (s : State) :
    (writeLanes w s).excode = s.excode := rfl
@[simp] theorem writeLanes_ctrl (w : List Byte) (s : State) :
    (writeLanes w s).ctrl = s.ctrl := rfl
@[simp] theorem writeLanes_val (w : List Byte) (s : State) :
    (writeLanes w s).val = s.val := rfl
@[simp] theorem writeLanes_wb0 (w : List Byte) (s : State) :
    (writeLanes w s).wb0 = laneAfter w 0 s.wb0 := rfl
@[simp] theorem writeLanes_wb1 (w : List Byte) (s : State) :
    (writeLanes w s).wb1 = laneAfter w 1 s.wb1 := rfl
@[simp] theorem writeLanes_wb2 (w : List Byte) (s : State) :
    (writeLanes w s).wb2 = laneAfter w 2 s.wb2 := rfl
@[simp] theorem writeLanes_wb3 (w : List Byte) (s : State) :
    (writeLanes w s).wb3 = laneAfter w 3 s.wb3 := rfl
@[simp] theorem writeLanes_tidin (w : List Byte) (s : State) :
    (writeLanes w s).tidin = s.tidin := rfl
@[simp] theorem writeLanes_unit (w : List Byte) (s : State) :
    (writeLanes w s).unit = s.unit := rfl
@[simp] theorem writeLanes_start (w : List Byte) (s : State) :
    (writeLanes w s).start = s.start := rfl
@[simp] theorem writeLanes_count (w : List Byte) (s : State) :
    (writeLanes w s).count = s.count := rfl
@[simp] theorem writeLanes_efc (w : List Byte) (s : State) :
    (writeLanes w s).efc = s.efc := rfl
@[simp] theorem writeLanes_rxlen (w : List Byte) (s : State) :
    (writeLanes w s).rxlen = s.rxlen := rfl
@[simp] theorem writeLanes_txlen (w : List Byte) (s : State) :
    (writeLanes w s).txlen = s.txlen := rfl
@[simp] theorem writeLanes_expsize (w : List Byte) (s : State) :
    (writeLanes w s).expsize = s.expsize := rfl
@[simp] theorem writeLanes_payoff (w : List Byte) (s : State) :
    (writeLanes w s).payoff = s.payoff := rfl
@[simp] theorem writeLanes_paylen (w : List Byte) (s : State) :
    (writeLanes w s).paylen = s.paylen := rfl
@[simp] theorem writeLanes_tidctr (w : List Byte) (s : State) :
    (writeLanes w s).tidctr = s.tidctr := rfl
@[simp] theorem writeLanes_desync (w : List Byte) (s : State) :
    (writeLanes w s).desync = s.desync := rfl
@[simp] theorem writeLanes_endc (w : List Byte) (s : State) :
    (writeLanes w s).endc = s.endc := rfl
@[simp] theorem writeLanes_txb (w : List Byte) (s : State) :
    (writeLanes w s).txb = s.txb := rfl
@[simp] theorem writeLanes_rxb (w : List Byte) (s : State) :
    (writeLanes w s).rxb = s.rxb := rfl
@[simp] theorem writeLanes_wdb (w : List Byte) (s : State) :
    (writeLanes w s).wdb = s.wdb := rfl
@[simp] theorem writeLanes_faulted (w : List Byte) (s : State) :
    (writeLanes w s).faulted = s.faulted := rfl
@[simp] theorem writeLanes_params (w : List Byte) (s : State) :
    (writeLanes w s).params = s.params := rfl
@[simp] theorem writeLanes_pending (w : List Byte) (s : State) :
    (writeLanes w s).pending = s.pending := rfl
@[simp] theorem writeLanes_lastRead (w : List Byte) (s : State) :
    (writeLanes w s).lastRead = s.lastRead := rfl
@[simp] theorem writeLanes_drawSeed (w : List Byte) (s : State) :
    (writeLanes w s).drawSeed = s.drawSeed := rfl

/-! ### writeVal -/

@[simp] theorem writeVal_status (v : Word) (s : State) :
    (writeVal v s).status = s.status := rfl
@[simp] theorem writeVal_excode (v : Word) (s : State) :
    (writeVal v s).excode = s.excode := rfl
@[simp] theorem writeVal_ctrl (v : Word) (s : State) :
    (writeVal v s).ctrl = s.ctrl := rfl
@[simp] theorem writeVal_val (v : Word) (s : State) :
    (writeVal v s).val = OperandReg.of v := rfl
@[simp] theorem writeVal_wb0 (v : Word) (s : State) :
    (writeVal v s).wb0 = s.wb0 := rfl
@[simp] theorem writeVal_wb1 (v : Word) (s : State) :
    (writeVal v s).wb1 = s.wb1 := rfl
@[simp] theorem writeVal_wb2 (v : Word) (s : State) :
    (writeVal v s).wb2 = s.wb2 := rfl
@[simp] theorem writeVal_wb3 (v : Word) (s : State) :
    (writeVal v s).wb3 = s.wb3 := rfl
@[simp] theorem writeVal_tidin (v : Word) (s : State) :
    (writeVal v s).tidin = s.tidin := rfl
@[simp] theorem writeVal_unit (v : Word) (s : State) :
    (writeVal v s).unit = s.unit := rfl
@[simp] theorem writeVal_start (v : Word) (s : State) :
    (writeVal v s).start = s.start := rfl
@[simp] theorem writeVal_count (v : Word) (s : State) :
    (writeVal v s).count = s.count := rfl
@[simp] theorem writeVal_efc (v : Word) (s : State) :
    (writeVal v s).efc = s.efc := rfl
@[simp] theorem writeVal_rxlen (v : Word) (s : State) :
    (writeVal v s).rxlen = s.rxlen := rfl
@[simp] theorem writeVal_txlen (v : Word) (s : State) :
    (writeVal v s).txlen = s.txlen := rfl
@[simp] theorem writeVal_expsize (v : Word) (s : State) :
    (writeVal v s).expsize = s.expsize := rfl
@[simp] theorem writeVal_payoff (v : Word) (s : State) :
    (writeVal v s).payoff = s.payoff := rfl
@[simp] theorem writeVal_paylen (v : Word) (s : State) :
    (writeVal v s).paylen = s.paylen := rfl
@[simp] theorem writeVal_tidctr (v : Word) (s : State) :
    (writeVal v s).tidctr = s.tidctr := rfl
@[simp] theorem writeVal_desync (v : Word) (s : State) :
    (writeVal v s).desync = s.desync := rfl
@[simp] theorem writeVal_endc (v : Word) (s : State) :
    (writeVal v s).endc = s.endc := rfl
@[simp] theorem writeVal_txb (v : Word) (s : State) :
    (writeVal v s).txb = s.txb := rfl
@[simp] theorem writeVal_rxb (v : Word) (s : State) :
    (writeVal v s).rxb = s.rxb := rfl
@[simp] theorem writeVal_wdb (v : Word) (s : State) :
    (writeVal v s).wdb = s.wdb := rfl
@[simp] theorem writeVal_faulted (v : Word) (s : State) :
    (writeVal v s).faulted = s.faulted := rfl
@[simp] theorem writeVal_params (v : Word) (s : State) :
    (writeVal v s).params = s.params := rfl
@[simp] theorem writeVal_pending (v : Word) (s : State) :
    (writeVal v s).pending = s.pending := rfl
@[simp] theorem writeVal_lastRead (v : Word) (s : State) :
    (writeVal v s).lastRead = s.lastRead := rfl
@[simp] theorem writeVal_drawSeed (v : Word) (s : State) :
    (writeVal v s).drawSeed = s.drawSeed := rfl

/-! ### rejectCount -/

@[simp] theorem rejectCount_status (s : State) :
    (rejectCount s).status = 0x31#8 := rfl
@[simp] theorem rejectCount_excode (s : State) :
    (rejectCount s).excode = s.excode := rfl
@[simp] theorem rejectCount_ctrl (s : State) :
    (rejectCount s).ctrl = s.ctrl := rfl
@[simp] theorem rejectCount_val (s : State) :
    (rejectCount s).val = s.val := rfl
@[simp] theorem rejectCount_wb0 (s : State) :
    (rejectCount s).wb0 = s.wb0 := rfl
@[simp] theorem rejectCount_wb1 (s : State) :
    (rejectCount s).wb1 = s.wb1 := rfl
@[simp] theorem rejectCount_wb2 (s : State) :
    (rejectCount s).wb2 = s.wb2 := rfl
@[simp] theorem rejectCount_wb3 (s : State) :
    (rejectCount s).wb3 = s.wb3 := rfl
@[simp] theorem rejectCount_tidin (s : State) :
    (rejectCount s).tidin = s.tidin := rfl
@[simp] theorem rejectCount_unit (s : State) :
    (rejectCount s).unit = s.unit := rfl
@[simp] theorem rejectCount_start (s : State) :
    (rejectCount s).start = s.start := rfl
@[simp] theorem rejectCount_count (s : State) :
    (rejectCount s).count = s.count := rfl
@[simp] theorem rejectCount_efc (s : State) :
    (rejectCount s).efc = s.efc := rfl
@[simp] theorem rejectCount_rxlen (s : State) :
    (rejectCount s).rxlen = s.rxlen := rfl
@[simp] theorem rejectCount_txlen (s : State) :
    (rejectCount s).txlen = 0#16 := rfl
@[simp] theorem rejectCount_expsize (s : State) :
    (rejectCount s).expsize = 0#16 := rfl
@[simp] theorem rejectCount_payoff (s : State) :
    (rejectCount s).payoff = s.payoff := rfl
@[simp] theorem rejectCount_paylen (s : State) :
    (rejectCount s).paylen = s.paylen := rfl
@[simp] theorem rejectCount_tidctr (s : State) :
    (rejectCount s).tidctr = s.tidctr := rfl
@[simp] theorem rejectCount_desync (s : State) :
    (rejectCount s).desync = s.desync := rfl
@[simp] theorem rejectCount_endc (s : State) :
    (rejectCount s).endc = s.endc := rfl
@[simp] theorem rejectCount_txb (s : State) :
    (rejectCount s).txb = s.txb := rfl
@[simp] theorem rejectCount_rxb (s : State) :
    (rejectCount s).rxb = s.rxb := rfl
@[simp] theorem rejectCount_wdb (s : State) :
    (rejectCount s).wdb = s.wdb := rfl
@[simp] theorem rejectCount_faulted (s : State) :
    (rejectCount s).faulted = s.faulted := rfl
@[simp] theorem rejectCount_params (s : State) :
    (rejectCount s).params = s.params := rfl
@[simp] theorem rejectCount_pending (s : State) :
    (rejectCount s).pending = s.pending := rfl
@[simp] theorem rejectCount_lastRead (s : State) :
    (rejectCount s).lastRead = s.lastRead := rfl
@[simp] theorem rejectCount_drawSeed (s : State) :
    (rejectCount s).drawSeed = s.drawSeed := rfl

/-! ### emitRequest -/

@[simp] theorem emitRequest_status (frame : List Byte) (n e : Half) (s : State) :
    (emitRequest frame n e s).status = 0x00#8 := rfl
@[simp] theorem emitRequest_excode (frame : List Byte) (n e : Half) (s : State) :
    (emitRequest frame n e s).excode = s.excode := rfl
@[simp] theorem emitRequest_ctrl (frame : List Byte) (n e : Half) (s : State) :
    (emitRequest frame n e s).ctrl = s.ctrl := rfl
@[simp] theorem emitRequest_val (frame : List Byte) (n e : Half) (s : State) :
    (emitRequest frame n e s).val = s.val := rfl
@[simp] theorem emitRequest_wb0 (frame : List Byte) (n e : Half) (s : State) :
    (emitRequest frame n e s).wb0 = s.wb0 := rfl
@[simp] theorem emitRequest_wb1 (frame : List Byte) (n e : Half) (s : State) :
    (emitRequest frame n e s).wb1 = s.wb1 := rfl
@[simp] theorem emitRequest_wb2 (frame : List Byte) (n e : Half) (s : State) :
    (emitRequest frame n e s).wb2 = s.wb2 := rfl
@[simp] theorem emitRequest_wb3 (frame : List Byte) (n e : Half) (s : State) :
    (emitRequest frame n e s).wb3 = s.wb3 := rfl
@[simp] theorem emitRequest_tidin (frame : List Byte) (n e : Half) (s : State) :
    (emitRequest frame n e s).tidin = s.tidin := rfl
@[simp] theorem emitRequest_unit (frame : List Byte) (n e : Half) (s : State) :
    (emitRequest frame n e s).unit = s.unit := rfl
@[simp] theorem emitRequest_start (frame : List Byte) (n e : Half) (s : State) :
    (emitRequest frame n e s).start = s.start := rfl
@[simp] theorem emitRequest_count (frame : List Byte) (n e : Half) (s : State) :
    (emitRequest frame n e s).count = s.count := rfl
@[simp] theorem emitRequest_efc (frame : List Byte) (n e : Half) (s : State) :
    (emitRequest frame n e s).efc = s.efc := rfl
@[simp] theorem emitRequest_rxlen (frame : List Byte) (n e : Half) (s : State) :
    (emitRequest frame n e s).rxlen = s.rxlen := rfl
@[simp] theorem emitRequest_txlen (frame : List Byte) (n e : Half) (s : State) :
    (emitRequest frame n e s).txlen = n := rfl
@[simp] theorem emitRequest_expsize (frame : List Byte) (n e : Half) (s : State) :
    (emitRequest frame n e s).expsize = e := rfl
@[simp] theorem emitRequest_payoff (frame : List Byte) (n e : Half) (s : State) :
    (emitRequest frame n e s).payoff = s.payoff := rfl
@[simp] theorem emitRequest_paylen (frame : List Byte) (n e : Half) (s : State) :
    (emitRequest frame n e s).paylen = s.paylen := rfl
@[simp] theorem emitRequest_tidctr (frame : List Byte) (n e : Half) (s : State) :
    (emitRequest frame n e s).tidctr = s.tidctr := rfl
@[simp] theorem emitRequest_desync (frame : List Byte) (n e : Half) (s : State) :
    (emitRequest frame n e s).desync = s.desync := rfl
@[simp] theorem emitRequest_endc (frame : List Byte) (n e : Half) (s : State) :
    (emitRequest frame n e s).endc = s.endc := rfl
@[simp] theorem emitRequest_txb (frame : List Byte) (n e : Half) (s : State) :
    (emitRequest frame n e s).txb = Memory.writeBytes s.txb 0 frame := rfl
@[simp] theorem emitRequest_rxb (frame : List Byte) (n e : Half) (s : State) :
    (emitRequest frame n e s).rxb = s.rxb := rfl
@[simp] theorem emitRequest_wdb (frame : List Byte) (n e : Half) (s : State) :
    (emitRequest frame n e s).wdb = s.wdb := rfl
@[simp] theorem emitRequest_faulted (frame : List Byte) (n e : Half) (s : State) :
    (emitRequest frame n e s).faulted = s.faulted := rfl
@[simp] theorem emitRequest_params (frame : List Byte) (n e : Half) (s : State) :
    (emitRequest frame n e s).params = s.params := rfl
@[simp] theorem emitRequest_pending (frame : List Byte) (n e : Half) (s : State) :
    (emitRequest frame n e s).pending = s.pending := rfl
@[simp] theorem emitRequest_lastRead (frame : List Byte) (n e : Half) (s : State) :
    (emitRequest frame n e s).lastRead = s.lastRead := rfl
@[simp] theorem emitRequest_drawSeed (frame : List Byte) (n e : Half) (s : State) :
    (emitRequest frame n e s).drawSeed = s.drawSeed := rfl

/-! ### failValidate -/

@[simp] theorem failValidate_status (c : StatusCode) (s : State) :
    (failValidate c s).status = statusByte c := rfl
@[simp] theorem failValidate_excode (c : StatusCode) (s : State) :
    (failValidate c s).excode = 0#8 := rfl
@[simp] theorem failValidate_ctrl (c : StatusCode) (s : State) :
    (failValidate c s).ctrl = s.ctrl := rfl
@[simp] theorem failValidate_val (c : StatusCode) (s : State) :
    (failValidate c s).val = s.val := rfl
@[simp] theorem failValidate_wb0 (c : StatusCode) (s : State) :
    (failValidate c s).wb0 = s.wb0 := rfl
@[simp] theorem failValidate_wb1 (c : StatusCode) (s : State) :
    (failValidate c s).wb1 = s.wb1 := rfl
@[simp] theorem failValidate_wb2 (c : StatusCode) (s : State) :
    (failValidate c s).wb2 = s.wb2 := rfl
@[simp] theorem failValidate_wb3 (c : StatusCode) (s : State) :
    (failValidate c s).wb3 = s.wb3 := rfl
@[simp] theorem failValidate_tidin (c : StatusCode) (s : State) :
    (failValidate c s).tidin = s.tidin := rfl
@[simp] theorem failValidate_unit (c : StatusCode) (s : State) :
    (failValidate c s).unit = s.unit := rfl
@[simp] theorem failValidate_start (c : StatusCode) (s : State) :
    (failValidate c s).start = s.start := rfl
@[simp] theorem failValidate_count (c : StatusCode) (s : State) :
    (failValidate c s).count = s.count := rfl
@[simp] theorem failValidate_efc (c : StatusCode) (s : State) :
    (failValidate c s).efc = s.efc := rfl
@[simp] theorem failValidate_rxlen (c : StatusCode) (s : State) :
    (failValidate c s).rxlen = s.rxlen := rfl
@[simp] theorem failValidate_txlen (c : StatusCode) (s : State) :
    (failValidate c s).txlen = s.txlen := rfl
@[simp] theorem failValidate_expsize (c : StatusCode) (s : State) :
    (failValidate c s).expsize = s.expsize := rfl
@[simp] theorem failValidate_payoff (c : StatusCode) (s : State) :
    (failValidate c s).payoff = 0#16 := rfl
@[simp] theorem failValidate_paylen (c : StatusCode) (s : State) :
    (failValidate c s).paylen = 0#16 := rfl
@[simp] theorem failValidate_tidctr (c : StatusCode) (s : State) :
    (failValidate c s).tidctr = s.tidctr := rfl
@[simp] theorem failValidate_desync (c : StatusCode) (s : State) :
    (failValidate c s).desync = desyncAfter c s.desync := rfl
@[simp] theorem failValidate_endc (c : StatusCode) (s : State) :
    (failValidate c s).endc = s.endc := rfl
@[simp] theorem failValidate_txb (c : StatusCode) (s : State) :
    (failValidate c s).txb = s.txb := rfl
@[simp] theorem failValidate_rxb (c : StatusCode) (s : State) :
    (failValidate c s).rxb = s.rxb := rfl
@[simp] theorem failValidate_wdb (c : StatusCode) (s : State) :
    (failValidate c s).wdb = s.wdb := rfl
@[simp] theorem failValidate_faulted (c : StatusCode) (s : State) :
    (failValidate c s).faulted = s.faulted := rfl
@[simp] theorem failValidate_params (c : StatusCode) (s : State) :
    (failValidate c s).params = s.params := rfl
@[simp] theorem failValidate_pending (c : StatusCode) (s : State) :
    (failValidate c s).pending = s.pending := rfl
@[simp] theorem failValidate_lastRead (c : StatusCode) (s : State) :
    (failValidate c s).lastRead = s.lastRead := rfl
@[simp] theorem failValidate_drawSeed (c : StatusCode) (s : State) :
    (failValidate c s).drawSeed = s.drawSeed := rfl

/-! ### reportException -/

@[simp] theorem reportException_status (code : Byte) (s : State) :
    (reportException code s).status = 0x27#8 := rfl
@[simp] theorem reportException_excode (code : Byte) (s : State) :
    (reportException code s).excode = code := rfl
@[simp] theorem reportException_ctrl (code : Byte) (s : State) :
    (reportException code s).ctrl = s.ctrl := rfl
@[simp] theorem reportException_val (code : Byte) (s : State) :
    (reportException code s).val = s.val := rfl
@[simp] theorem reportException_wb0 (code : Byte) (s : State) :
    (reportException code s).wb0 = s.wb0 := rfl
@[simp] theorem reportException_wb1 (code : Byte) (s : State) :
    (reportException code s).wb1 = s.wb1 := rfl
@[simp] theorem reportException_wb2 (code : Byte) (s : State) :
    (reportException code s).wb2 = s.wb2 := rfl
@[simp] theorem reportException_wb3 (code : Byte) (s : State) :
    (reportException code s).wb3 = s.wb3 := rfl
@[simp] theorem reportException_tidin (code : Byte) (s : State) :
    (reportException code s).tidin = s.tidin := rfl
@[simp] theorem reportException_unit (code : Byte) (s : State) :
    (reportException code s).unit = s.unit := rfl
@[simp] theorem reportException_start (code : Byte) (s : State) :
    (reportException code s).start = s.start := rfl
@[simp] theorem reportException_count (code : Byte) (s : State) :
    (reportException code s).count = s.count := rfl
@[simp] theorem reportException_efc (code : Byte) (s : State) :
    (reportException code s).efc = s.efc := rfl
@[simp] theorem reportException_rxlen (code : Byte) (s : State) :
    (reportException code s).rxlen = s.rxlen := rfl
@[simp] theorem reportException_txlen (code : Byte) (s : State) :
    (reportException code s).txlen = s.txlen := rfl
@[simp] theorem reportException_expsize (code : Byte) (s : State) :
    (reportException code s).expsize = s.expsize := rfl
@[simp] theorem reportException_payoff (code : Byte) (s : State) :
    (reportException code s).payoff = 0#16 := rfl
@[simp] theorem reportException_paylen (code : Byte) (s : State) :
    (reportException code s).paylen = 0#16 := rfl
@[simp] theorem reportException_tidctr (code : Byte) (s : State) :
    (reportException code s).tidctr = s.tidctr := rfl
@[simp] theorem reportException_desync (code : Byte) (s : State) :
    (reportException code s).desync = s.desync := rfl
@[simp] theorem reportException_endc (code : Byte) (s : State) :
    (reportException code s).endc = s.endc := rfl
@[simp] theorem reportException_txb (code : Byte) (s : State) :
    (reportException code s).txb = s.txb := rfl
@[simp] theorem reportException_rxb (code : Byte) (s : State) :
    (reportException code s).rxb = s.rxb := rfl
@[simp] theorem reportException_wdb (code : Byte) (s : State) :
    (reportException code s).wdb = s.wdb := rfl
@[simp] theorem reportException_faulted (code : Byte) (s : State) :
    (reportException code s).faulted = s.faulted := rfl
@[simp] theorem reportException_params (code : Byte) (s : State) :
    (reportException code s).params = s.params := rfl
@[simp] theorem reportException_pending (code : Byte) (s : State) :
    (reportException code s).pending = s.pending := rfl
@[simp] theorem reportException_lastRead (code : Byte) (s : State) :
    (reportException code s).lastRead = s.lastRead := rfl
@[simp] theorem reportException_drawSeed (code : Byte) (s : State) :
    (reportException code s).drawSeed = s.drawSeed := rfl

/-! ### acceptFrame -/

@[simp] theorem acceptFrame_status (off len : Half) (s : State) :
    (acceptFrame off len s).status = 0x00#8 := rfl
@[simp] theorem acceptFrame_excode (off len : Half) (s : State) :
    (acceptFrame off len s).excode = 0#8 := rfl
@[simp] theorem acceptFrame_ctrl (off len : Half) (s : State) :
    (acceptFrame off len s).ctrl = s.ctrl := rfl
@[simp] theorem acceptFrame_val (off len : Half) (s : State) :
    (acceptFrame off len s).val = s.val := rfl
@[simp] theorem acceptFrame_wb0 (off len : Half) (s : State) :
    (acceptFrame off len s).wb0 = s.wb0 := rfl
@[simp] theorem acceptFrame_wb1 (off len : Half) (s : State) :
    (acceptFrame off len s).wb1 = s.wb1 := rfl
@[simp] theorem acceptFrame_wb2 (off len : Half) (s : State) :
    (acceptFrame off len s).wb2 = s.wb2 := rfl
@[simp] theorem acceptFrame_wb3 (off len : Half) (s : State) :
    (acceptFrame off len s).wb3 = s.wb3 := rfl
@[simp] theorem acceptFrame_tidin (off len : Half) (s : State) :
    (acceptFrame off len s).tidin = s.tidin := rfl
@[simp] theorem acceptFrame_unit (off len : Half) (s : State) :
    (acceptFrame off len s).unit = s.unit := rfl
@[simp] theorem acceptFrame_start (off len : Half) (s : State) :
    (acceptFrame off len s).start = s.start := rfl
@[simp] theorem acceptFrame_count (off len : Half) (s : State) :
    (acceptFrame off len s).count = s.count := rfl
@[simp] theorem acceptFrame_efc (off len : Half) (s : State) :
    (acceptFrame off len s).efc = s.efc := rfl
@[simp] theorem acceptFrame_rxlen (off len : Half) (s : State) :
    (acceptFrame off len s).rxlen = s.rxlen := rfl
@[simp] theorem acceptFrame_txlen (off len : Half) (s : State) :
    (acceptFrame off len s).txlen = s.txlen := rfl
@[simp] theorem acceptFrame_expsize (off len : Half) (s : State) :
    (acceptFrame off len s).expsize = s.expsize := rfl
@[simp] theorem acceptFrame_payoff (off len : Half) (s : State) :
    (acceptFrame off len s).payoff = off := rfl
@[simp] theorem acceptFrame_paylen (off len : Half) (s : State) :
    (acceptFrame off len s).paylen = len := rfl
@[simp] theorem acceptFrame_tidctr (off len : Half) (s : State) :
    (acceptFrame off len s).tidctr = s.tidctr := rfl
@[simp] theorem acceptFrame_desync (off len : Half) (s : State) :
    (acceptFrame off len s).desync = s.desync := rfl
@[simp] theorem acceptFrame_endc (off len : Half) (s : State) :
    (acceptFrame off len s).endc = s.endc := rfl
@[simp] theorem acceptFrame_txb (off len : Half) (s : State) :
    (acceptFrame off len s).txb = s.txb := rfl
@[simp] theorem acceptFrame_rxb (off len : Half) (s : State) :
    (acceptFrame off len s).rxb = s.rxb := rfl
@[simp] theorem acceptFrame_wdb (off len : Half) (s : State) :
    (acceptFrame off len s).wdb = s.wdb := rfl
@[simp] theorem acceptFrame_faulted (off len : Half) (s : State) :
    (acceptFrame off len s).faulted = s.faulted := rfl
@[simp] theorem acceptFrame_params (off len : Half) (s : State) :
    (acceptFrame off len s).params = s.params := rfl
@[simp] theorem acceptFrame_pending (off len : Half) (s : State) :
    (acceptFrame off len s).pending = s.pending := rfl
@[simp] theorem acceptFrame_lastRead (off len : Half) (s : State) :
    (acceptFrame off len s).lastRead = s.lastRead := rfl
@[simp] theorem acceptFrame_drawSeed (off len : Half) (s : State) :
    (acceptFrame off len s).drawSeed = s.drawSeed := rfl

/-! ### takeAction -/

@[simp] theorem takeAction_status (rest : List HostAction) (s : State) :
    (takeAction rest s).status = s.status := rfl
@[simp] theorem takeAction_excode (rest : List HostAction) (s : State) :
    (takeAction rest s).excode = s.excode := rfl
@[simp] theorem takeAction_ctrl (rest : List HostAction) (s : State) :
    (takeAction rest s).ctrl = s.ctrl := rfl
@[simp] theorem takeAction_val (rest : List HostAction) (s : State) :
    (takeAction rest s).val = s.val := rfl
@[simp] theorem takeAction_wb0 (rest : List HostAction) (s : State) :
    (takeAction rest s).wb0 = s.wb0 := rfl
@[simp] theorem takeAction_wb1 (rest : List HostAction) (s : State) :
    (takeAction rest s).wb1 = s.wb1 := rfl
@[simp] theorem takeAction_wb2 (rest : List HostAction) (s : State) :
    (takeAction rest s).wb2 = s.wb2 := rfl
@[simp] theorem takeAction_wb3 (rest : List HostAction) (s : State) :
    (takeAction rest s).wb3 = s.wb3 := rfl
@[simp] theorem takeAction_tidin (rest : List HostAction) (s : State) :
    (takeAction rest s).tidin = s.tidin := rfl
@[simp] theorem takeAction_unit (rest : List HostAction) (s : State) :
    (takeAction rest s).unit = s.unit := rfl
@[simp] theorem takeAction_start (rest : List HostAction) (s : State) :
    (takeAction rest s).start = s.start := rfl
@[simp] theorem takeAction_count (rest : List HostAction) (s : State) :
    (takeAction rest s).count = s.count := rfl
@[simp] theorem takeAction_efc (rest : List HostAction) (s : State) :
    (takeAction rest s).efc = s.efc := rfl
@[simp] theorem takeAction_rxlen (rest : List HostAction) (s : State) :
    (takeAction rest s).rxlen = s.rxlen := rfl
@[simp] theorem takeAction_txlen (rest : List HostAction) (s : State) :
    (takeAction rest s).txlen = s.txlen := rfl
@[simp] theorem takeAction_expsize (rest : List HostAction) (s : State) :
    (takeAction rest s).expsize = s.expsize := rfl
@[simp] theorem takeAction_payoff (rest : List HostAction) (s : State) :
    (takeAction rest s).payoff = s.payoff := rfl
@[simp] theorem takeAction_paylen (rest : List HostAction) (s : State) :
    (takeAction rest s).paylen = s.paylen := rfl
@[simp] theorem takeAction_tidctr (rest : List HostAction) (s : State) :
    (takeAction rest s).tidctr = s.tidctr := rfl
@[simp] theorem takeAction_desync (rest : List HostAction) (s : State) :
    (takeAction rest s).desync = s.desync := rfl
@[simp] theorem takeAction_endc (rest : List HostAction) (s : State) :
    (takeAction rest s).endc = s.endc := rfl
@[simp] theorem takeAction_txb (rest : List HostAction) (s : State) :
    (takeAction rest s).txb = s.txb := rfl
@[simp] theorem takeAction_rxb (rest : List HostAction) (s : State) :
    (takeAction rest s).rxb = s.rxb := rfl
@[simp] theorem takeAction_wdb (rest : List HostAction) (s : State) :
    (takeAction rest s).wdb = s.wdb := rfl
@[simp] theorem takeAction_faulted (rest : List HostAction) (s : State) :
    (takeAction rest s).faulted = s.faulted := rfl
@[simp] theorem takeAction_params (rest : List HostAction) (s : State) :
    (takeAction rest s).params = s.params := rfl
@[simp] theorem takeAction_pending (rest : List HostAction) (s : State) :
    (takeAction rest s).pending = rest := rfl
@[simp] theorem takeAction_lastRead (rest : List HostAction) (s : State) :
    (takeAction rest s).lastRead = s.lastRead := rfl
@[simp] theorem takeAction_drawSeed (rest : List HostAction) (s : State) :
    (takeAction rest s).drawSeed = s.drawSeed := rfl

/-! ### handHost -/

@[simp] theorem handHost_status (x : Word) (s : State) :
    (handHost x s).status = s.status := rfl
@[simp] theorem handHost_excode (x : Word) (s : State) :
    (handHost x s).excode = s.excode := rfl
@[simp] theorem handHost_ctrl (x : Word) (s : State) :
    (handHost x s).ctrl = s.ctrl := rfl
@[simp] theorem handHost_val (x : Word) (s : State) :
    (handHost x s).val = s.val := rfl
@[simp] theorem handHost_wb0 (x : Word) (s : State) :
    (handHost x s).wb0 = s.wb0 := rfl
@[simp] theorem handHost_wb1 (x : Word) (s : State) :
    (handHost x s).wb1 = s.wb1 := rfl
@[simp] theorem handHost_wb2 (x : Word) (s : State) :
    (handHost x s).wb2 = s.wb2 := rfl
@[simp] theorem handHost_wb3 (x : Word) (s : State) :
    (handHost x s).wb3 = s.wb3 := rfl
@[simp] theorem handHost_tidin (x : Word) (s : State) :
    (handHost x s).tidin = s.tidin := rfl
@[simp] theorem handHost_unit (x : Word) (s : State) :
    (handHost x s).unit = s.unit := rfl
@[simp] theorem handHost_start (x : Word) (s : State) :
    (handHost x s).start = s.start := rfl
@[simp] theorem handHost_count (x : Word) (s : State) :
    (handHost x s).count = s.count := rfl
@[simp] theorem handHost_efc (x : Word) (s : State) :
    (handHost x s).efc = s.efc := rfl
@[simp] theorem handHost_rxlen (x : Word) (s : State) :
    (handHost x s).rxlen = s.rxlen := rfl
@[simp] theorem handHost_txlen (x : Word) (s : State) :
    (handHost x s).txlen = s.txlen := rfl
@[simp] theorem handHost_expsize (x : Word) (s : State) :
    (handHost x s).expsize = s.expsize := rfl
@[simp] theorem handHost_payoff (x : Word) (s : State) :
    (handHost x s).payoff = s.payoff := rfl
@[simp] theorem handHost_paylen (x : Word) (s : State) :
    (handHost x s).paylen = s.paylen := rfl
@[simp] theorem handHost_tidctr (x : Word) (s : State) :
    (handHost x s).tidctr = s.tidctr := rfl
@[simp] theorem handHost_desync (x : Word) (s : State) :
    (handHost x s).desync = s.desync := rfl
@[simp] theorem handHost_endc (x : Word) (s : State) :
    (handHost x s).endc = s.endc := rfl
@[simp] theorem handHost_txb (x : Word) (s : State) :
    (handHost x s).txb = s.txb := rfl
@[simp] theorem handHost_rxb (x : Word) (s : State) :
    (handHost x s).rxb = s.rxb := rfl
@[simp] theorem handHost_wdb (x : Word) (s : State) :
    (handHost x s).wdb = s.wdb := rfl
@[simp] theorem handHost_faulted (x : Word) (s : State) :
    (handHost x s).faulted = s.faulted := rfl
@[simp] theorem handHost_params (x : Word) (s : State) :
    (handHost x s).params = s.params := rfl
@[simp] theorem handHost_pending (x : Word) (s : State) :
    (handHost x s).pending = s.pending := rfl
@[simp] theorem handHost_lastRead (x : Word) (s : State) :
    (handHost x s).lastRead = some x := rfl
@[simp] theorem handHost_drawSeed (x : Word) (s : State) :
    (handHost x s).drawSeed = s.drawSeed := rfl

/-! ### storeRxb -/

@[simp] theorem storeRxb_status (a : Nat) (v : Byte) (s : State) :
    (storeRxb a v s).status = s.status := rfl
@[simp] theorem storeRxb_excode (a : Nat) (v : Byte) (s : State) :
    (storeRxb a v s).excode = s.excode := rfl
@[simp] theorem storeRxb_ctrl (a : Nat) (v : Byte) (s : State) :
    (storeRxb a v s).ctrl = s.ctrl := rfl
@[simp] theorem storeRxb_val (a : Nat) (v : Byte) (s : State) :
    (storeRxb a v s).val = s.val := rfl
@[simp] theorem storeRxb_wb0 (a : Nat) (v : Byte) (s : State) :
    (storeRxb a v s).wb0 = s.wb0 := rfl
@[simp] theorem storeRxb_wb1 (a : Nat) (v : Byte) (s : State) :
    (storeRxb a v s).wb1 = s.wb1 := rfl
@[simp] theorem storeRxb_wb2 (a : Nat) (v : Byte) (s : State) :
    (storeRxb a v s).wb2 = s.wb2 := rfl
@[simp] theorem storeRxb_wb3 (a : Nat) (v : Byte) (s : State) :
    (storeRxb a v s).wb3 = s.wb3 := rfl
@[simp] theorem storeRxb_tidin (a : Nat) (v : Byte) (s : State) :
    (storeRxb a v s).tidin = s.tidin := rfl
@[simp] theorem storeRxb_unit (a : Nat) (v : Byte) (s : State) :
    (storeRxb a v s).unit = s.unit := rfl
@[simp] theorem storeRxb_start (a : Nat) (v : Byte) (s : State) :
    (storeRxb a v s).start = s.start := rfl
@[simp] theorem storeRxb_count (a : Nat) (v : Byte) (s : State) :
    (storeRxb a v s).count = s.count := rfl
@[simp] theorem storeRxb_efc (a : Nat) (v : Byte) (s : State) :
    (storeRxb a v s).efc = s.efc := rfl
@[simp] theorem storeRxb_rxlen (a : Nat) (v : Byte) (s : State) :
    (storeRxb a v s).rxlen = s.rxlen := rfl
@[simp] theorem storeRxb_txlen (a : Nat) (v : Byte) (s : State) :
    (storeRxb a v s).txlen = s.txlen := rfl
@[simp] theorem storeRxb_expsize (a : Nat) (v : Byte) (s : State) :
    (storeRxb a v s).expsize = s.expsize := rfl
@[simp] theorem storeRxb_payoff (a : Nat) (v : Byte) (s : State) :
    (storeRxb a v s).payoff = s.payoff := rfl
@[simp] theorem storeRxb_paylen (a : Nat) (v : Byte) (s : State) :
    (storeRxb a v s).paylen = s.paylen := rfl
@[simp] theorem storeRxb_tidctr (a : Nat) (v : Byte) (s : State) :
    (storeRxb a v s).tidctr = s.tidctr := rfl
@[simp] theorem storeRxb_desync (a : Nat) (v : Byte) (s : State) :
    (storeRxb a v s).desync = s.desync := rfl
@[simp] theorem storeRxb_endc (a : Nat) (v : Byte) (s : State) :
    (storeRxb a v s).endc = s.endc := rfl
@[simp] theorem storeRxb_txb (a : Nat) (v : Byte) (s : State) :
    (storeRxb a v s).txb = s.txb := rfl
@[simp] theorem storeRxb_rxb (a : Nat) (v : Byte) (s : State) :
    (storeRxb a v s).rxb = Memory.write s.rxb a v := rfl
@[simp] theorem storeRxb_wdb (a : Nat) (v : Byte) (s : State) :
    (storeRxb a v s).wdb = s.wdb := rfl
@[simp] theorem storeRxb_faulted (a : Nat) (v : Byte) (s : State) :
    (storeRxb a v s).faulted = s.faulted := rfl
@[simp] theorem storeRxb_params (a : Nat) (v : Byte) (s : State) :
    (storeRxb a v s).params = s.params := rfl
@[simp] theorem storeRxb_pending (a : Nat) (v : Byte) (s : State) :
    (storeRxb a v s).pending = s.pending := rfl
@[simp] theorem storeRxb_lastRead (a : Nat) (v : Byte) (s : State) :
    (storeRxb a v s).lastRead = s.lastRead := rfl
@[simp] theorem storeRxb_drawSeed (a : Nat) (v : Byte) (s : State) :
    (storeRxb a v s).drawSeed = s.drawSeed := rfl

/-! ### storeWdb -/

@[simp] theorem storeWdb_status (a : Nat) (v : Byte) (s : State) :
    (storeWdb a v s).status = s.status := rfl
@[simp] theorem storeWdb_excode (a : Nat) (v : Byte) (s : State) :
    (storeWdb a v s).excode = s.excode := rfl
@[simp] theorem storeWdb_ctrl (a : Nat) (v : Byte) (s : State) :
    (storeWdb a v s).ctrl = s.ctrl := rfl
@[simp] theorem storeWdb_val (a : Nat) (v : Byte) (s : State) :
    (storeWdb a v s).val = s.val := rfl
@[simp] theorem storeWdb_wb0 (a : Nat) (v : Byte) (s : State) :
    (storeWdb a v s).wb0 = s.wb0 := rfl
@[simp] theorem storeWdb_wb1 (a : Nat) (v : Byte) (s : State) :
    (storeWdb a v s).wb1 = s.wb1 := rfl
@[simp] theorem storeWdb_wb2 (a : Nat) (v : Byte) (s : State) :
    (storeWdb a v s).wb2 = s.wb2 := rfl
@[simp] theorem storeWdb_wb3 (a : Nat) (v : Byte) (s : State) :
    (storeWdb a v s).wb3 = s.wb3 := rfl
@[simp] theorem storeWdb_tidin (a : Nat) (v : Byte) (s : State) :
    (storeWdb a v s).tidin = s.tidin := rfl
@[simp] theorem storeWdb_unit (a : Nat) (v : Byte) (s : State) :
    (storeWdb a v s).unit = s.unit := rfl
@[simp] theorem storeWdb_start (a : Nat) (v : Byte) (s : State) :
    (storeWdb a v s).start = s.start := rfl
@[simp] theorem storeWdb_count (a : Nat) (v : Byte) (s : State) :
    (storeWdb a v s).count = s.count := rfl
@[simp] theorem storeWdb_efc (a : Nat) (v : Byte) (s : State) :
    (storeWdb a v s).efc = s.efc := rfl
@[simp] theorem storeWdb_rxlen (a : Nat) (v : Byte) (s : State) :
    (storeWdb a v s).rxlen = s.rxlen := rfl
@[simp] theorem storeWdb_txlen (a : Nat) (v : Byte) (s : State) :
    (storeWdb a v s).txlen = s.txlen := rfl
@[simp] theorem storeWdb_expsize (a : Nat) (v : Byte) (s : State) :
    (storeWdb a v s).expsize = s.expsize := rfl
@[simp] theorem storeWdb_payoff (a : Nat) (v : Byte) (s : State) :
    (storeWdb a v s).payoff = s.payoff := rfl
@[simp] theorem storeWdb_paylen (a : Nat) (v : Byte) (s : State) :
    (storeWdb a v s).paylen = s.paylen := rfl
@[simp] theorem storeWdb_tidctr (a : Nat) (v : Byte) (s : State) :
    (storeWdb a v s).tidctr = s.tidctr := rfl
@[simp] theorem storeWdb_desync (a : Nat) (v : Byte) (s : State) :
    (storeWdb a v s).desync = s.desync := rfl
@[simp] theorem storeWdb_endc (a : Nat) (v : Byte) (s : State) :
    (storeWdb a v s).endc = s.endc := rfl
@[simp] theorem storeWdb_txb (a : Nat) (v : Byte) (s : State) :
    (storeWdb a v s).txb = s.txb := rfl
@[simp] theorem storeWdb_rxb (a : Nat) (v : Byte) (s : State) :
    (storeWdb a v s).rxb = s.rxb := rfl
@[simp] theorem storeWdb_wdb (a : Nat) (v : Byte) (s : State) :
    (storeWdb a v s).wdb = Memory.write s.wdb a v := rfl
@[simp] theorem storeWdb_faulted (a : Nat) (v : Byte) (s : State) :
    (storeWdb a v s).faulted = s.faulted := rfl
@[simp] theorem storeWdb_params (a : Nat) (v : Byte) (s : State) :
    (storeWdb a v s).params = s.params := rfl
@[simp] theorem storeWdb_pending (a : Nat) (v : Byte) (s : State) :
    (storeWdb a v s).pending = s.pending := rfl
@[simp] theorem storeWdb_lastRead (a : Nat) (v : Byte) (s : State) :
    (storeWdb a v s).lastRead = s.lastRead := rfl
@[simp] theorem storeWdb_drawSeed (a : Nat) (v : Byte) (s : State) :
    (storeWdb a v s).drawSeed = s.drawSeed := rfl

/-! ### nextTransactionId -/

@[simp] theorem nextTransactionId_status (s : State) :
    (nextTransactionId s).status = 0x00#8 := rfl
@[simp] theorem nextTransactionId_excode (s : State) :
    (nextTransactionId s).excode = s.excode := rfl
@[simp] theorem nextTransactionId_ctrl (s : State) :
    (nextTransactionId s).ctrl = s.ctrl := rfl
@[simp] theorem nextTransactionId_val (s : State) :
    (nextTransactionId s).val = s.val := rfl
@[simp] theorem nextTransactionId_wb0 (s : State) :
    (nextTransactionId s).wb0 = s.wb0 := rfl
@[simp] theorem nextTransactionId_wb1 (s : State) :
    (nextTransactionId s).wb1 = s.wb1 := rfl
@[simp] theorem nextTransactionId_wb2 (s : State) :
    (nextTransactionId s).wb2 = s.wb2 := rfl
@[simp] theorem nextTransactionId_wb3 (s : State) :
    (nextTransactionId s).wb3 = s.wb3 := rfl
@[simp] theorem nextTransactionId_tidin (s : State) :
    (nextTransactionId s).tidin = OperandReg.of s.tidctr := rfl
@[simp] theorem nextTransactionId_unit (s : State) :
    (nextTransactionId s).unit = s.unit := rfl
@[simp] theorem nextTransactionId_start (s : State) :
    (nextTransactionId s).start = s.start := rfl
@[simp] theorem nextTransactionId_count (s : State) :
    (nextTransactionId s).count = s.count := rfl
@[simp] theorem nextTransactionId_efc (s : State) :
    (nextTransactionId s).efc = s.efc := rfl
@[simp] theorem nextTransactionId_rxlen (s : State) :
    (nextTransactionId s).rxlen = s.rxlen := rfl
@[simp] theorem nextTransactionId_txlen (s : State) :
    (nextTransactionId s).txlen = s.txlen := rfl
@[simp] theorem nextTransactionId_expsize (s : State) :
    (nextTransactionId s).expsize = s.expsize := rfl
@[simp] theorem nextTransactionId_payoff (s : State) :
    (nextTransactionId s).payoff = s.payoff := rfl
@[simp] theorem nextTransactionId_paylen (s : State) :
    (nextTransactionId s).paylen = s.paylen := rfl
@[simp] theorem nextTransactionId_tidctr (s : State) :
    (nextTransactionId s).tidctr = s.tidctr + 1#16 := rfl
@[simp] theorem nextTransactionId_desync (s : State) :
    (nextTransactionId s).desync = s.desync := rfl
@[simp] theorem nextTransactionId_endc (s : State) :
    (nextTransactionId s).endc = s.endc := rfl
@[simp] theorem nextTransactionId_txb (s : State) :
    (nextTransactionId s).txb = s.txb := rfl
@[simp] theorem nextTransactionId_rxb (s : State) :
    (nextTransactionId s).rxb = s.rxb := rfl
@[simp] theorem nextTransactionId_wdb (s : State) :
    (nextTransactionId s).wdb = s.wdb := rfl
@[simp] theorem nextTransactionId_faulted (s : State) :
    (nextTransactionId s).faulted = s.faulted := rfl
@[simp] theorem nextTransactionId_params (s : State) :
    (nextTransactionId s).params = s.params := rfl
@[simp] theorem nextTransactionId_pending (s : State) :
    (nextTransactionId s).pending = s.pending := rfl
@[simp] theorem nextTransactionId_lastRead (s : State) :
    (nextTransactionId s).lastRead = s.lastRead := rfl
@[simp] theorem nextTransactionId_drawSeed (s : State) :
    (nextTransactionId s).drawSeed = s.drawSeed := rfl

/-! ### Buffers and registers the host's side of the state does not touch -/

@[simp] theorem bufferOf_takeAction (b : Buffer) (rest : List HostAction) (s : State) :
    bufferOf b (takeAction rest s) = bufferOf b s := by cases b <;> rfl

@[simp] theorem bufferOf_handHost (b : Buffer) (x : Word) (s : State) :
    bufferOf b (handHost x s) = bufferOf b s := by cases b <;> rfl

@[simp] theorem regView_takeAction (r : RegName) (rest : List HostAction) (s : State) :
    regView r (takeAction rest s) = regView r s := by cases r <;> rfl

@[simp] theorem regView_handHost (r : RegName) (x : Word) (s : State) :
    regView r (handHost x s) = regView r s := by cases r <;> rfl

@[simp] theorem bufferOf_finish (b : Buffer) (c : StatusCode) (s : State) :
    bufferOf b (finish c s) = bufferOf b s := by cases b <;> rfl

@[simp] theorem bufferOf_raiseUnwritten (b : Buffer) (i : Instr) (what : Place) (s : State) :
    bufferOf b (raiseUnwritten i what s) = bufferOf b s := by cases b <;> rfl

@[simp] theorem regView_raiseUnwritten (r : RegName) (i : Instr) (what : Place) (s : State) :
    regView r (raiseUnwritten i what s) = regView r s := by cases r <;> rfl

end Sys2Proof.Machine
end

