-- ==== Sys2Proof/Laws/Commands.lean ====
section
/-!
SUPPORT. One lemma per shared operation of the commands that says everything it can do: how a command ends, what each
body gives, and which states VALIDATE can end in. Later proofs cite these and unfold no body.
-/
namespace Sys2Proof.Machine

/-! ### How a command ends -/

@[simp] theorem commit_ok (i : Instr) (s t : State) : commit i s (.ok t) = .next t := rfl

@[simp] theorem commit_error (i : Instr) (s : State) (what : Place) :
    commit i s (.error what) = .next (raiseUnwritten i what s) := rfl

/-- A command ends with its body's state or with the fault of its body's first unwritten read. -/
theorem commit_cases (i : Instr) (s : State) (body : Except Place State) :
    (∃ t, body = .ok t ∧ commit i s body = .next t) ∨
      (∃ what, body = .error what ∧ commit i s body = .next (raiseUnwritten i what s)) := by
  cases body with
  | ok t => exact .inl ⟨t, rfl, rfl⟩
  | error what => exact .inr ⟨what, rfl, rfl⟩

/-! ### Binding in Except -/

@[simp] theorem except_ok_bind {α β : Type} (a : α) (f : α → Except Place β) :
    (Except.ok a >>= f) = f a := rfl

@[simp] theorem except_error_bind {α β : Type} (what : Place) (f : α → Except Place β) :
    (Except.error what >>= f) = Except.error what := rfl

@[simp] theorem except_pure {α : Type} (a : α) : (pure a : Except Place α) = .ok a := rfl

/-! ### Codec -/

@[simp] theorem reverseIfLittle_hostImage (e : Endian) (bytes : List Byte) :
    reverseIfLittle e (hostImage e bytes) = bytes := by
  cases e <;> simp [reverseIfLittle, hostImage]

@[simp] theorem hostImage_reverseIfLittle (e : Endian) (bytes : List Byte) :
    hostImage e (reverseIfLittle e bytes) = bytes := by
  cases e <;> simp [reverseIfLittle, hostImage]

/-- ENC16 up to its end. -/
theorem encode16Body_cases (s : State) :
    (s.val.written = true ∧
        encode16Body s = .ok (finish .ok (writeLanes (be16 (s.val.value.extractLsb' 0 16)) (determineEndian s)))) ∨
      (s.val.written = false ∧ encode16Body s = .error (.reg .val)) := by
  rcases readReg_cases .val s.val with ⟨h, e⟩ | ⟨h, e⟩
  · exact .inl ⟨h, by simp [encode16Body, readVal, e, wire16]⟩
  · exact .inr ⟨h, by simp [encode16Body, readVal, e]⟩

/-- ENC32 and ENCF32 up to their end. -/
theorem encode32Body_cases (s : State) :
    (s.val.written = true ∧
        encode32Body s = .ok (finish .ok (writeLanes (be32 s.val.value) (determineEndian s)))) ∨
      (s.val.written = false ∧ encode32Body s = .error (.reg .val)) := by
  rcases readReg_cases .val s.val with ⟨h, e⟩ | ⟨h, e⟩
  · exact .inl ⟨h, by simp [encode32Body, readVal, e, wire32]⟩
  · exact .inr ⟨h, by simp [encode32Body, readVal, e]⟩

/-- DEC16 up to its end. -/
theorem decode16Body_cases (s : State) :
    (s.wb0.written = true ∧ s.wb1.written = true ∧
        decode16Body s = .ok (finish .ok
          (writeVal ((joinBE16 s.wb0.value s.wb1.value).setWidth 32) (determineEndian s)))) ∨
      (s.wb0.written = false ∧ decode16Body s = .error (.reg .wb0)) ∨
      (s.wb0.written = true ∧ s.wb1.written = false ∧ decode16Body s = .error (.reg .wb1)) := by
  rcases readReg_cases .wb0 s.wb0 with ⟨h0, e0⟩ | ⟨h0, e0⟩
  · rcases readReg_cases .wb1 s.wb1 with ⟨h1, e1⟩ | ⟨h1, e1⟩
    · exact .inl ⟨h0, h1, by simp [decode16Body, readLanes2, e0, e1, value16, halfOfBytes]⟩
    · exact .inr (.inr ⟨h0, h1, by simp [decode16Body, readLanes2, e0, e1]⟩)
  · exact .inr (.inl ⟨h0, by simp [decode16Body, readLanes2, e0]⟩)

/-- DEC32 and DECF32 up to their end. -/
theorem decode32Body_cases (s : State) :
    (s.wb0.written = true ∧ s.wb1.written = true ∧ s.wb2.written = true ∧ s.wb3.written = true ∧
        decode32Body s = .ok (finish .ok
          (writeVal (joinBE32 s.wb0.value s.wb1.value s.wb2.value s.wb3.value) (determineEndian s)))) ∨
      (s.wb0.written = false ∧ decode32Body s = .error (.reg .wb0)) ∨
      (s.wb0.written = true ∧ s.wb1.written = false ∧ decode32Body s = .error (.reg .wb1)) ∨
      (s.wb0.written = true ∧ s.wb1.written = true ∧ s.wb2.written = false ∧
        decode32Body s = .error (.reg .wb2)) ∨
      (s.wb0.written = true ∧ s.wb1.written = true ∧ s.wb2.written = true ∧ s.wb3.written = false ∧
        decode32Body s = .error (.reg .wb3)) := by
  rcases readReg_cases .wb0 s.wb0 with ⟨h0, e0⟩ | ⟨h0, e0⟩
  · rcases readReg_cases .wb1 s.wb1 with ⟨h1, e1⟩ | ⟨h1, e1⟩
    · rcases readReg_cases .wb2 s.wb2 with ⟨h2, e2⟩ | ⟨h2, e2⟩
      · rcases readReg_cases .wb3 s.wb3 with ⟨h3, e3⟩ | ⟨h3, e3⟩
        · exact .inl ⟨h0, h1, h2, h3, by simp [decode32Body, readLanes4, e0, e1, e2, e3, value32, wordOfBytes]⟩
        · exact .inr (.inr (.inr (.inr ⟨h0, h1, h2, h3, by simp [decode32Body, readLanes4, e0, e1, e2, e3]⟩)))
      · exact .inr (.inr (.inr (.inl ⟨h0, h1, h2, by simp [decode32Body, readLanes4, e0, e1, e2]⟩)))
    · exact .inr (.inr (.inl ⟨h0, h1, by simp [decode32Body, readLanes4, e0, e1]⟩))
  · exact .inr (.inl ⟨h0, by simp [decode32Body, readLanes4, e0]⟩)

/-! ### Builds -/

@[simp] theorem readRequestFrame_length (o : RequestOperands) : (readRequestFrame o).length = 12 := by
  simp [readRequestFrame, mbapHeader, be16]

@[simp] theorem writeRequestFrame_length (o : RequestOperands) (data : List Byte) :
    (writeRequestFrame o data).length = 13 + data.length := by
  simp [writeRequestFrame, mbapHeader, be16]; omega

/-- BUILDRD up to its end: an operand fault, the count rejection or the frame. -/
theorem buildReadBody_cases (s : State) :
    (∃ what, readRequestOperands s = .error what ∧ buildReadBody s = .error what) ∨
    (∃ o, readRequestOperands s = .ok o ∧ 127 < o.count.toNat ∧ buildReadBody s = .ok (rejectCount s)) ∨
    (∃ o, readRequestOperands s = .ok o ∧ o.count.toNat ≤ 127 ∧
      buildReadBody s = .ok (emitRequest (readRequestFrame o) 12#16 (BitVec.ofNat 16 (9 + 2 * o.count.toNat)) s)) := by
  cases h : readRequestOperands s with
  | error what => exact .inl ⟨what, rfl, by simp [buildReadBody, h]⟩
  | ok o =>
    rcases Nat.lt_or_ge 127 o.count.toNat with hc | hc
    · exact .inr (.inl ⟨o, rfl, hc, by simp [buildReadBody, h, maxCount, hc]⟩)
    · exact .inr (.inr ⟨o, rfl, hc, by simp [buildReadBody, h, maxCount, Nat.not_lt.mpr hc]⟩)

/-- BUILDWR up to its end: an operand fault, the count rejection, a data fault or the frame. -/
theorem buildWriteBody_cases (s : State) :
    (∃ what, readRequestOperands s = .error what ∧ buildWriteBody s = .error what) ∨
    (∃ o, readRequestOperands s = .ok o ∧ 127 < o.count.toNat ∧ buildWriteBody s = .ok (rejectCount s)) ∨
    (∃ o what, readRequestOperands s = .ok o ∧ o.count.toNat ≤ 127 ∧
      readBytes .wdb 0 (2 * o.count.toNat) s = .error what ∧ buildWriteBody s = .error what) ∨
    (∃ o data, readRequestOperands s = .ok o ∧ o.count.toNat ≤ 127 ∧
      readBytes .wdb 0 (2 * o.count.toNat) s = .ok data ∧
      buildWriteBody s =
        .ok (emitRequest (writeRequestFrame o data) (BitVec.ofNat 16 (13 + 2 * o.count.toNat)) 12#16 s)) := by
  cases h : readRequestOperands s with
  | error what => exact .inl ⟨what, rfl, by simp [buildWriteBody, h]⟩
  | ok o =>
    rcases Nat.lt_or_ge 127 o.count.toNat with hc | hc
    · exact .inr (.inl ⟨o, rfl, hc, by simp [buildWriteBody, h, maxCount, hc]⟩)
    · cases hd : readBytes .wdb 0 (2 * o.count.toNat) s with
      | error what =>
        exact .inr (.inr (.inl ⟨o, what, rfl, hc, hd, by
          simp [buildWriteBody, h, maxCount, Nat.not_lt.mpr hc, hd]⟩))
      | ok data =>
        exact .inr (.inr (.inr ⟨o, data, rfl, hc, hd, by
          simp [buildWriteBody, h, maxCount, Nat.not_lt.mpr hc, hd]⟩))

/-! ### Validation -/

/-- The states VALIDATE can end in with a status: fail(C), a device exception, or success with a slice inside the
received frame. -/
inductive ValidateEnd (s : State) : State → Prop where
  | failed (c : StatusCode) (hc : c ∈ [StatusCode.badArgument, .frameTruncated, .unexpectedFunctionCode,
      .lengthMismatch, .sizeMismatch, .transactionMismatch]) : ValidateEnd s (failValidate c s)
  | exception (code : Byte) (h : Memory.read s.rxb 8 = some code) : ValidateEnd s (reportException code s)
  | accepted (off len : Half) (h : off.toNat + len.toNat ≤ s.rxlen.value.toNat) :
      ValidateEnd s (acceptFrame off len s)

theorem checkTransaction_end {off len : Half} {s t : State}
    (hlen : off.toNat + len.toNat ≤ s.rxlen.value.toNat) (h : checkTransaction off len s = .ok t) :
    ValidateEnd s t := by
  unfold checkTransaction at h
  split at h
  · rcases readReg_cases .tidin s.tidin with ⟨-, e⟩ | ⟨-, e⟩
    · rcases readHalf_cases .rxb 0 s with ⟨v0, v1, -, -, e'⟩ | ⟨-, e'⟩ | ⟨-, -, e'⟩
      · simp only [e, e', except_ok_bind] at h
        split at h
        · simp only [except_pure, Except.ok.injEq] at h; subst h; exact .accepted off len hlen
        · simp only [except_pure, Except.ok.injEq] at h; subst h; exact .failed _ (by decide)
      · simp [e, e'] at h
      · simp [e, e'] at h
    · simp [e] at h
  · simp only [except_pure, Except.ok.injEq] at h; subst h; exact .accepted off len hlen

theorem checkReadSize_end {s t : State} (h : checkReadSize s.rxlen.value s = .ok t) : ValidateEnd s t := by
  unfold checkReadSize at h
  rcases readByte_cases .rxb 8 s with ⟨bc, -, e⟩ | ⟨-, e⟩
  · simp only [e, except_ok_bind] at h
    split at h
    · next hn =>
      refine checkTransaction_end ?_ h
      have := bc.isLt
      simp only [BitVec.toNat_setWidth, BitVec.toNat_ofNat]
      omega
    · simp only [except_pure, Except.ok.injEq] at h; subst h; exact .failed _ (by decide)
  · simp [e] at h

theorem checkLength_end {efc : Byte} {s t : State} (hn : 9 ≤ s.rxlen.value.toNat)
    (h : checkLength efc s.rxlen.value s = .ok t) : ValidateEnd s t := by
  unfold checkLength at h
  rcases readHalf_cases .rxb 4 s with ⟨v0, v1, -, -, e⟩ | ⟨-, e⟩ | ⟨-, -, e⟩
  · simp only [e, except_ok_bind] at h
    split at h
    · simp only [except_pure, Except.ok.injEq] at h; subst h; exact .failed _ (by decide)
    · split at h
      · exact checkReadSize_end h
      · refine checkTransaction_end ?_ h
        have := s.rxlen.value.isLt
        simp only [BitVec.toNat_sub, BitVec.toNat_ofNat]
        omega
  · simp [e] at h
  · simp [e] at h

theorem dispatchFunctionCode_end {efc fc : Byte} {s t : State} (hn : 9 ≤ s.rxlen.value.toNat)
    (h : dispatchFunctionCode efc s.rxlen.value fc s = .ok t) : ValidateEnd s t := by
  unfold dispatchFunctionCode at h
  split at h
  · exact checkLength_end hn h
  · split at h
    · rcases readByte_cases .rxb 8 s with ⟨code, hc, e⟩ | ⟨-, e⟩
      · simp only [e, except_ok_bind, except_pure, Except.ok.injEq] at h
        subst h
        exact .exception code hc
      · simp [e] at h
    · simp only [except_pure, Except.ok.injEq] at h; subst h; exact .failed _ (by decide)

/-- Every run of VALIDATE that ends with a status ends in one of those states, its arguments having been read; a
success or an exception needs valid arguments. -/
theorem validateBody_end {byte7 : Except Place Byte} {s t : State} (h : validateBody byte7 s = .ok t) :
    s.efc.written = true ∧ s.rxlen.written = true ∧
      (ValidateEnd s t ∧ s.rxlen.value.toNat ≤ s.params.rxCap ∨ t = failValidate .badArgument s) := by
  unfold validateBody at h
  rcases readReg_cases .efc s.efc with ⟨he, e⟩ | ⟨-, e⟩
  · rcases readReg_cases .rxlen s.rxlen with ⟨hr, e'⟩ | ⟨-, e'⟩
    · simp only [e, e', except_ok_bind] at h
      refine ⟨he, hr, ?_⟩
      split at h
      · simp only [except_pure, Except.ok.injEq] at h; exact .inr h.symm
      · split at h
        · simp only [except_pure, Except.ok.injEq] at h; exact .inr h.symm
        · next hcap =>
          split at h
          · simp only [except_pure, Except.ok.injEq] at h
            subst h
            exact .inl ⟨.failed _ (by decide), by omega⟩
          · next hn =>
            cases byte7 with
            | error what => simp at h
            | ok fc => exact .inl ⟨dispatchFunctionCode_end (by omega) h, by omega⟩
    · simp [e, e'] at h
  · simp [e] at h

/-- VALIDATE on valid arguments and nine bytes or more is the dispatch on its function code. -/
theorem validateBody_of_valid {byte7 : Except Place Byte} {s : State} (he : s.efc.written = true)
    (hr : s.rxlen.written = true) (hefc : s.efc.value = 0x03#8 ∨ s.efc.value = 0x10#8)
    (hcap : s.rxlen.value.toNat ≤ s.params.rxCap) (hn : 9 ≤ s.rxlen.value.toNat) :
    validateBody byte7 s = byte7 >>= fun fc => dispatchFunctionCode s.efc.value s.rxlen.value fc s := by
  have h1 : ¬ (s.efc.value ≠ functionCodeRead ∧ s.efc.value ≠ functionCodeWrite) := by
    simp only [functionCodeRead, functionCodeWrite]
    rcases hefc with h | h <;> simp [h]
  simp [validateBody, he, hr, h1, Nat.not_lt.mpr hcap, Nat.not_lt.mpr hn]

end Sys2Proof.Machine
end

