-- ==== Sys2Proof/Laws/Step.lean ====
section
/-!
SUPPORT. What one step can do, said once: nothing where the state is FAULTED or the host makes no action, else the
host's first action; and what each host action does.
-/
namespace Sys2Proof.Machine

/-- A step of a state that is not FAULTED and has an action pending is that action. -/
theorem step_of_pending {s : State} {act : HostAction} {rest : List HostAction} (hf : s.faulted = none)
    (hp : s.pending = act :: rest) : step s = hostAct act (takeAction rest s) := by
  unfold step nextAction
  rw [hf]
  dsimp only
  rw [hp]

/-- A step of a FAULTED state changes nothing. -/
theorem step_of_faulted {s : State} {m : FaultMark} (hf : s.faulted = some m) : step s = .next s := by
  unfold step nextAction
  rw [hf]

/-- A step of a state with nothing pending changes nothing. -/
theorem step_of_idle {s : State} (hf : s.faulted = none) (hp : s.pending = []) : step s = .next s := by
  unfold step nextAction
  rw [hf]
  dsimp only
  rw [hp]

/-- Everything a step can be. -/
theorem step_cases (s : State) :
    ((s.faulted ≠ none ∨ s.pending = []) ∧ step s = .next s) ∨
      (∃ act rest, s.faulted = none ∧ s.pending = act :: rest ∧ step s = hostAct act (takeAction rest s)) := by
  cases hf : s.faulted with
  | some m => exact .inl ⟨.inl (by simp), step_of_faulted hf⟩
  | none =>
    cases hp : s.pending with
    | nil => exact .inl ⟨.inr rfl, step_of_idle hf hp⟩
    | cons act rest => exact .inr ⟨act, rest, rfl, rfl, step_of_pending hf hp⟩

/-- No steps. -/
theorem run_zero (s : State) : Host.Core.run core 0 s = .next s := rfl

/-- n + 1 steps from a state whose first step goes on. -/
theorem run_succ {n : Nat} {s t : State} (h : step s = .next t) :
    Host.Core.run core (n + 1) s = Host.Core.run core n t := by
  have h' : core.step s = .next t := h
  simp only [Host.Core.run, h']

/-- n + 1 steps that end in a state begin with a step that goes on. -/
theorem run_succ_next {n : Nat} {s t : State} (h : Host.Core.run core (n + 1) s = .next t) :
    ∃ u : State, step s = .next u ∧ Host.Core.run core n u = .next t := by
  cases h' : step s with
  | next u => exact ⟨u, rfl, (run_succ h').symm.trans h⟩
  | fault r =>
    have h'' : core.step s = .fault r := h'
    simp [Host.Core.run, h''] at h
  | refused r =>
    have h'' : core.step s = .refused r := h'
    simp [Host.Core.run, h''] at h

/-- A CMD write runs the decoded command. -/
theorem runCommand_eq (op : Byte) (s : State) : runCommand op s = exec (decodeCommand op) s := rfl

/-- Everything a host register write can be. -/
theorem hostWriteReg_cases (n : Byte) (v : Word) (s : State) :
    (regOfNumber n = none ∧ hostWriteReg n v s = .next s) ∨
    ∃ r, regOfNumber n = some r ∧
      (hostWritable r = false ∧ hostWriteReg n v s = .next s ∨
       hostWritable r = true ∧ ¬ v.toNat < 2 ^ regWidth r ∧ hostWriteReg n v s = .refused (.hostValueTooWide r) ∨
       hostWritable r = true ∧ v.toNat < 2 ^ regWidth r ∧ r = .cmd ∧
         hostWriteReg n v s = exec (decodeCommand (v.setWidth 8)) s ∨
       hostWritable r = true ∧ v.toNat < 2 ^ regWidth r ∧ r ≠ .cmd ∧
         hostWriteReg n v s = .next (writeOperandReg r v s)) := by
  unfold hostWriteReg
  split
  · next h => exact .inl ⟨h, rfl⟩
  · next r h =>
    refine .inr ⟨r, h, ?_⟩
    split
    · next hw =>
      split
      · next hv =>
        split
        · next hc => exact .inr (.inr (.inl ⟨hw, hv, hc, rfl⟩))
        · next hc => exact .inr (.inr (.inr ⟨hw, hv, hc, rfl⟩))
      · next hv => exact .inr (.inl ⟨hw, hv, rfl⟩)
    · next hw => exact .inl ⟨by simpa using hw, rfl⟩

/-- A host register read hands over one value. -/
theorem hostReadReg_eq (n : Byte) (s : State) :
    hostReadReg n s = .next (handHost ((regOfNumber n).elim 0#32 (fun r => hostRegValue r s)) s) := by
  unfold hostReadReg
  split <;> next h => simp [h]

/-- A host buffer read hands over one byte or is outside the buffer. -/
theorem hostReadBuf_eq (b : Buffer) (a : Nat) (s : State) :
    hostReadBuf b a s = if a < b.capacity s.params then .next (handHost ((hostByteValue b a s).setWidth 32) s)
      else .fault (.outsideBuffer b a) := rfl

@[simp] theorem hostRegValue_takeAction (r : RegName) (rest : List HostAction) (s : State) :
    hostRegValue r (takeAction rest s) = hostRegValue r s := by simp [hostRegValue]

@[simp] theorem hostRegValue_handHost (r : RegName) (x : Word) (s : State) :
    hostRegValue r (handHost x s) = hostRegValue r s := by simp [hostRegValue]

@[simp] theorem hostByteValue_takeAction (b : Buffer) (a : Nat) (rest : List HostAction) (s : State) :
    hostByteValue b a (takeAction rest s) = hostByteValue b a s := by simp [hostByteValue]

@[simp] theorem hostByteValue_handHost (b : Buffer) (a : Nat) (x : Word) (s : State) :
    hostByteValue b a (handHost x s) = hostByteValue b a s := by simp [hostByteValue]

end Sys2Proof.Machine
end

