-- ==== Sys2Proof/Laws/Exchange.lean ====
section
/-!
SUPPORT. What the host's actions do one after the other, said once: an action that goes on hands the rest to the state it
leaves, and reads leave everything but the value read. Claims about an exchange (R213) cite these and unfold no step.
-/
namespace Sys2Proof.Machine

/-- A frame length that fits RXLEN is carried as it is. -/
theorem rxlenValue_toNat_of_lt {n : Nat} (h : n < 2 ^ 16) : (rxlenValue n).toNat = n := by
  simp only [rxlenValue, BitVec.toNat_ofNat]
  omega

/-- A frame length that does not fit RXLEN stays too wide, however long the frame. -/
theorem rxlenValue_toNat_of_le {n : Nat} (h : 2 ^ 16 ≤ n) : 2 ^ 16 ≤ (rxlenValue n).toNat := by
  simp only [rxlenValue, BitVec.toNat_ofNat]
  omega

/-- So the write of RXLEN for a frame that is too long is refused. -/
theorem hostWriteReg_rxlenValue_of_le {n : Nat} (s : State) (h : 2 ^ 16 ≤ n) :
    hostWriteReg (regNumber .rxlen) (rxlenValue n) s = .refused (.hostValueTooWide .rxlen) := by
  have hr : regOfNumber (regNumber .rxlen) = some .rxlen := rfl
  have hw : ¬ (rxlenValue n).toNat < 2 ^ regWidth .rxlen := Nat.not_lt.mpr (rxlenValue_toNat_of_le h)
  simp only [hostWriteReg, hr, hostWritable, if_true, if_neg hw]

/-- n steps of the exchange are n steps of the machine. -/
theorem runSteps_eq_run (n : Nat) (s : State) : runSteps n s = Host.Core.run core n s := by
  induction n generalizing s with
  | zero => rfl
  | succ n ih =>
    have e : core.step s = step s := rfl
    simp only [runSteps, Host.Core.run, e]
    cases step s with
    | next t => exact ih t
    | fault r => rfl
    | refused r => rfl

@[simp] theorem makeActions_nil (s : State) : makeActions [] s = .next s := rfl

/-- An action that goes on, whatever is still to be made, hands the rest to the state it leaves. -/
theorem makeActions_cons {act : HostAction} {rest : List HostAction} {s t : State} (hf : s.faulted = none)
    (hp : t.pending = s.pending) (h : ∀ q, hostAct act (takeAction q s) = .next (takeAction q t)) :
    makeActions (act :: rest) s = makeActions rest t := by
  have hs : step (giveActions (act :: rest) s) = .next (giveActions rest t) := by
    rw [step_of_pending (s := giveActions (act :: rest) s) (rest := rest ++ s.pending) hf rfl]
    have := h (rest ++ s.pending)
    rw [← hp] at this
    rw [← hp]
    exact this
  simp only [makeActions, List.length_cons, runSteps, hs]

/-- afterActions, where the actions go on and none faults. -/
theorem afterActions_of_next {acts : List HostAction} {s t : State} {k : State → ExchangeOutcome}
    (h : makeActions acts s = .next t) (hf : t.faulted = none) : afterActions acts s k = k t := by
  simp only [afterActions, h, hf]

/-- A register read leaves everything but the value read. -/
theorem makeActions_rd (r : RegName) (rest : List HostAction) {s : State} (hf : s.faulted = none) :
    ∃ x, makeActions (rd r :: rest) s = makeActions rest { s with lastRead := some x } := by
  refine ⟨(regOfNumber (regNumber r)).elim 0#32 (fun r => hostRegValue r s), makeActions_cons hf rfl fun q => ?_⟩
  simp only [rd, hostAct, hostReadReg_eq, hostRegValue_takeAction]
  rfl

/-- Reads of bytes below the capacity leave everything but the value read. -/
theorem makeActions_rdbFrom (b : Buffer) (a n : Nat) {s : State} (hf : s.faulted = none)
    (h : a + n ≤ b.capacity s.params) :
    ∃ x, makeActions (rdbFrom b a n) s = .next { s with lastRead := x } := by
  induction n generalizing a s with
  | zero => exact ⟨s.lastRead, rfl⟩
  | succ n ih =>
    have e : makeActions (rdbFrom b a (n + 1)) s =
        makeActions (rdbFrom b (a + 1) n) (handHost ((hostByteValue b a s).setWidth 32) s) := by
      refine makeActions_cons hf rfl fun q => ?_
      have ha : a < b.capacity (takeAction q s).params := Nat.lt_of_lt_of_le (by omega) h
      simp only [hostAct, hostReadBuf_eq, if_pos ha, hostByteValue_takeAction]
      rfl
    obtain ⟨x, hx⟩ := ih (a + 1) (s := handHost ((hostByteValue b a s).setWidth 32) s) hf
      (Nat.le_trans (by omega) h)
    exact ⟨x, e.trans hx⟩

/-- A write of a writable register other than CMD, of a value of its width, leaves the register written. -/
theorem makeActions_wr {r : RegName} {v : Word} (rest : List HostAction) {s : State} (hf : s.faulted = none)
    (hw : hostWritable r = true) (hc : r ≠ .cmd) (hv : v.toNat < 2 ^ regWidth r) :
    makeActions (wr r v :: rest) s = makeActions rest (writeOperandReg r v s) := by
  have hr : regOfNumber (regNumber r) = some r := by cases r <;> rfl
  refine makeActions_cons hf (by cases r <;> rfl) fun q => ?_
  simp only [wr, hostAct, hostWriteReg, hr, hw, if_true, hv, if_neg hc]
  cases r <;> rfl

/-- A command line whose command goes on, whatever is still to be made, leaves the state it ends in. -/
theorem makeActions_command {i : Instr} (rest : List HostAction) {s t : State} (hf : s.faulted = none)
    (hi : decodeCommand (encodeByte i) = i) (hp : t.pending = s.pending)
    (h : ∀ q, exec i (takeAction q s) = .next (takeAction q t)) :
    makeActions (commandLine i :: rest) s = makeActions rest t := by
  refine makeActions_cons hf hp fun q => ?_
  have hr : regOfNumber (regNumber .cmd) = some .cmd := rfl
  have hv : ((encodeByte i).setWidth 32 : Word).toNat < 2 ^ regWidth .cmd := by
    have := (encodeByte i).isLt
    simp only [BitVec.toNat_setWidth, regWidth]
    omega
  have hb : ((encodeByte i).setWidth 32 : Word).setWidth 8 = encodeByte i := by simp
  simp only [commandLine, wr, hostAct, hostWriteReg, hr, hostWritable, if_true, hv, runCommand_eq, hb, hi, h]

/-- Writes of WDB below its capacity leave the bytes stored. -/
theorem makeActions_wrb_wdb (data : List Byte) (a : Nat) (rest : List HostAction) {s : State} (hf : s.faulted = none)
    (h : a + data.length ≤ Config.wdbCapacity) :
    makeActions (wrb .wdb a data ++ rest) s =
      makeActions rest { s with wdb := Memory.writeBytes s.wdb a data } := by
  induction data generalizing a s with
  | nil => rfl
  | cons v data ih =>
    simp only [List.length_cons] at h
    have e : makeActions (wrb .wdb a (v :: data) ++ rest) s =
        makeActions (wrb .wdb (a + 1) data ++ rest) (storeWdb a v s) := by
      refine makeActions_cons hf rfl fun q => ?_
      have ha : a < Buffer.wdb.capacity (takeAction q s).params := Nat.lt_of_lt_of_le (by omega) h
      simp only [hostAct, hostWriteBuf, if_pos ha]
      rfl
    rw [e, ih (a + 1) (s := storeWdb a v s) hf (by omega)]
    rfl

/-- What host reads of written bytes return is those bytes. -/
theorem hostBytes_of_written {b : Buffer} {a n : Nat} {s : State} {bytes : List Byte} (hl : bytes.length = n)
    (h : ∀ k, k < n → Memory.read (bufferOf b s) (a + k) = bytes[k]?) : hostBytes b a n s = bytes := by
  apply List.ext_getElem
  · simp [hostBytes, hl]
  · intro k h1 h2
    have := h k (by omega)
    rw [List.getElem?_eq_getElem h2] at this
    simp [hostBytes, hostByteValue, this]

end Sys2Proof.Machine
end

