-- ==== Sys2Proof/Laws/Exec.lean ====
section
/-!
SUPPORT. Everything an instruction can do, said once: it raises the fault of its first unwritten read, or it ends in one
of the few states its command can end in. Invariants and whole-machine rules follow by cases on that.
-/
namespace Sys2Proof.Machine

/-! ### A read that stops, stops at something unwritten -/

theorem unwritten_reg {w : Nat} {r : RegName} {x : OperandReg w} {s : State} {what : Place}
    (h : readReg r x = .error what) (hx : (regView r s).written = x.written) : Unwritten s what := by
  rcases readReg_cases r x with ⟨-, e⟩ | ⟨hw, e⟩
  · simp [e] at h
  · rw [e, Except.error.injEq] at h
    subst h
    exact hx.trans hw

theorem unwritten_byte {b : Buffer} {a : Nat} {s : State} {what : Place} (h : readByte b a s = .error what) :
    Unwritten s what := by
  rcases readByte_cases b a s with ⟨v, -, e⟩ | ⟨hn, e⟩
  · simp [e] at h
  · rw [e, Except.error.injEq] at h
    subst h
    exact hn

theorem unwritten_half {b : Buffer} {a : Nat} {s : State} {what : Place} (h : readHalf b a s = .error what) :
    Unwritten s what := by
  rcases readHalf_cases b a s with ⟨v0, v1, -, -, e⟩ | ⟨hn, e⟩ | ⟨-, hn, e⟩
  · simp [e] at h
  · rw [e, Except.error.injEq] at h
    subst h
    exact hn
  · rw [e, Except.error.injEq] at h
    subst h
    exact hn

theorem unwritten_bytes {b : Buffer} {a n : Nat} {s : State} {what : Place} (h : readBytes b a n s = .error what) :
    Unwritten s what := by
  obtain ⟨k, -, rfl, hn, -⟩ := readBytes_error h
  exact hn

theorem unwritten_operands {s : State} {what : Place} (h : readRequestOperands s = .error what) :
    Unwritten s what := by
  unfold readRequestOperands at h
  cases h0 : readReg .tidin s.tidin with
  | error w => simp [h0] at h; subst h; exact unwritten_reg h0 rfl
  | ok v0 =>
    cases h1 : readReg .unit s.unit with
    | error w => simp [h0, h1] at h; subst h; exact unwritten_reg h1 rfl
    | ok v1 =>
      cases h2 : readReg .start s.start with
      | error w => simp [h0, h1, h2] at h; subst h; exact unwritten_reg h2 rfl
      | ok v2 =>
        cases h3 : readReg .count s.count with
        | error w => simp [h0, h1, h2, h3] at h; subst h; exact unwritten_reg h3 rfl
        | ok v3 => simp [h0, h1, h2, h3] at h

theorem unwritten_transaction {off len : Half} {s : State} {what : Place}
    (h : checkTransaction off len s = .error what) : Unwritten s what := by
  unfold checkTransaction at h
  split at h
  · cases h0 : readReg .tidin s.tidin with
    | error w => simp [h0] at h; subst h; exact unwritten_reg h0 rfl
    | ok v0 =>
      cases h1 : readHalf .rxb 0 s with
      | error w => simp [h0, h1] at h; subst h; exact unwritten_half h1
      | ok v1 => simp only [h0, h1, except_ok_bind] at h; split at h <;> simp at h
  · simp at h

theorem unwritten_length {efc : Byte} {n : Half} {s : State} {what : Place}
    (h : checkLength efc n s = .error what) : Unwritten s what := by
  unfold checkLength at h
  cases h0 : readHalf .rxb 4 s with
  | error w => simp [h0] at h; subst h; exact unwritten_half h0
  | ok v0 =>
    simp only [h0, except_ok_bind] at h
    split at h
    · simp at h
    · split at h
      · unfold checkReadSize at h
        cases h1 : readByte .rxb 8 s with
        | error w => simp [h1] at h; subst h; exact unwritten_byte h1
        | ok v1 =>
          simp only [h1, except_ok_bind] at h
          split at h
          · exact unwritten_transaction h
          · simp at h
      · exact unwritten_transaction h

/-- A stop of VALIDATE is at something unwritten, if the read of byte 7 is. -/
theorem unwritten_validate {byte7 : Except Place Byte} {s : State} {what : Place}
    (h7 : ∀ w, byte7 = .error w → Unwritten s w) (h : validateBody byte7 s = .error what) : Unwritten s what := by
  unfold validateBody at h
  cases h0 : readReg .efc s.efc with
  | error w => simp [h0] at h; subst h; exact unwritten_reg h0 rfl
  | ok v0 =>
    cases h1 : readReg .rxlen s.rxlen with
    | error w => simp [h0, h1] at h; subst h; exact unwritten_reg h1 rfl
    | ok v1 =>
      simp only [h0, h1, except_ok_bind] at h
      split at h
      · simp at h
      · split at h
        · simp at h
        · split at h
          · simp at h
          · cases byte7 with
            | error w => simp at h; subst h; exact h7 _ rfl
            | ok fc =>
              simp only [except_ok_bind, dispatchFunctionCode] at h
              split at h
              · exact unwritten_length h
              · split at h
                · cases h8 : readByte .rxb 8 s with
                  | error w => simp [h8] at h; subst h; exact unwritten_byte h8
                  | ok code => simp [h8] at h
                · simp at h

/-! ### Where an instruction can end -/

/-- The states instruction i can end in with a status. -/
inductive ExecEnd (s : State) : Instr → State → Prop where
  | encoded (i : Instr) (hi : i ∈ [Instr.enc16, .enc32, .encf32]) (wire : List Byte) :
      ExecEnd s i (finish .ok (writeLanes wire (determineEndian s)))
  | decoded (i : Instr) (hi : i ∈ [Instr.dec16, .dec32, .decf32]) (v : Word) :
      ExecEnd s i (finish .ok (writeVal v (determineEndian s)))
  | rejected (i : Instr) (hi : i ∈ [Instr.buildrd, .buildwr]) : ExecEnd s i (rejectCount s)
  | built (i : Instr) (hi : i ∈ [Instr.buildrd, .buildwr]) (frame : List Byte) (n e : Half)
      (hn : frame.length = n.toNat) (hcap : n.toNat ≤ 267) : ExecEnd s i (emitRequest frame n e s)
  | validated (i : Instr) (hi : faultingCommand i = .validate) (t : State) (hcap : s.rxlen.value.toNat ≤ s.params.rxCap)
      (h : ValidateEnd s t) : ExecEnd s i t
  | badArgument (i : Instr) (hi : faultingCommand i = .validate) : ExecEnd s i (failValidate .badArgument s)
  | tid : ExecEnd s .tidnext (nextTransactionId s)
  | bad (op : Byte) : ExecEnd s (.badCommand op) (finish .badCommand s)

/-- What a run of VALIDATE, or of a function code inside it, can do. -/
theorem validate_cases {i : Instr} {s : State} {byte7 : Except Place Byte} (hi : faultingCommand i = .validate)
    (h7 : ∀ w, byte7 = .error w → Unwritten s w) (he : exec i s = commit .validate s (validateBody byte7 s)) :
    (∃ what, Unwritten s what ∧ exec i s = .next (raiseUnwritten (faultingCommand i) what s)) ∨
      (∃ t, exec i s = .next t ∧ ExecEnd s i t) := by
  rcases commit_cases .validate s (validateBody byte7 s) with ⟨t, e, e'⟩ | ⟨what, e, e'⟩
  · refine .inr ⟨t, he.trans e', ?_⟩
    rcases validateBody_end e with ⟨-, -, ⟨h, hcap⟩ | rfl⟩
    · exact .validated i hi t hcap h
    · exact .badArgument i hi
  · exact .inl ⟨what, unwritten_validate h7 e, by rw [hi]; exact he.trans e'⟩

/-- What a command whose body is a codec or build body can do. -/
theorem command_cases {i : Instr} {s : State} {body : Except Place State} (hi : faultingCommand i = i)
    (he : exec i s = commit i s body) (herr : ∀ w, body = .error w → Unwritten s w)
    (hok : ∀ t, body = .ok t → ExecEnd s i t) :
    (∃ what, Unwritten s what ∧ exec i s = .next (raiseUnwritten (faultingCommand i) what s)) ∨
      (∃ t, exec i s = .next t ∧ ExecEnd s i t) := by
  rcases commit_cases i s body with ⟨t, e, e'⟩ | ⟨what, e, e'⟩
  · exact .inr ⟨t, he.trans e', hok t e⟩
  · exact .inl ⟨what, herr what e, by rw [hi]; exact he.trans e'⟩

/-- An encode ends in its lanes or stops at VAL. -/
theorem encode_end {s : State} {body : Except Place State} {frame : List Byte}
    (h : (s.val.written = true ∧ body = .ok (finish .ok (writeLanes frame (determineEndian s)))) ∨
      (s.val.written = false ∧ body = .error (.reg .val))) :
    (∀ w, body = .error w → Unwritten s w) ∧
      (∀ t, body = .ok t → t = finish .ok (writeLanes frame (determineEndian s))) := by
  rcases h with ⟨-, rfl⟩ | ⟨hw, rfl⟩
  · exact ⟨by simp, by simp [eq_comm]⟩
  · refine ⟨?_, by simp⟩
    intro w h
    rw [Except.error.injEq] at h
    subst h
    exact hw

theorem decode16_end (s : State) : (∀ w, decode16Body s = .error w → Unwritten s w) ∧
    (∀ t, decode16Body s = .ok t → ∃ v, t = finish .ok (writeVal v (determineEndian s))) := by
  rcases decode16Body_cases s with ⟨-, -, e⟩ | ⟨h, e⟩ | ⟨-, h, e⟩ <;> rw [e]
  · exact ⟨by simp, fun t h => ⟨_, by simpa using h.symm⟩⟩
  · refine ⟨?_, by simp⟩; rintro w ⟨⟩; exact h
  · refine ⟨?_, by simp⟩; rintro w ⟨⟩; exact h

theorem decode32_end (s : State) : (∀ w, decode32Body s = .error w → Unwritten s w) ∧
    (∀ t, decode32Body s = .ok t → ∃ v, t = finish .ok (writeVal v (determineEndian s))) := by
  rcases decode32Body_cases s with ⟨-, -, -, -, e⟩ | ⟨h, e⟩ | ⟨-, h, e⟩ | ⟨-, -, h, e⟩ | ⟨-, -, -, h, e⟩ <;> rw [e]
  · exact ⟨by simp, fun t h => ⟨_, by simpa using h.symm⟩⟩
  · refine ⟨?_, by simp⟩; rintro w ⟨⟩; exact h
  · refine ⟨?_, by simp⟩; rintro w ⟨⟩; exact h
  · refine ⟨?_, by simp⟩; rintro w ⟨⟩; exact h
  · refine ⟨?_, by simp⟩; rintro w ⟨⟩; exact h

theorem buildRead_end (s : State) : (∀ w, buildReadBody s = .error w → Unwritten s w) ∧
    (∀ t, buildReadBody s = .ok t → ExecEnd s .buildrd t) := by
  rcases buildReadBody_cases s with ⟨w, h, e⟩ | ⟨o, -, -, e⟩ | ⟨o, -, -, e⟩ <;> rw [e]
  · refine ⟨?_, by simp⟩; rintro w ⟨⟩; exact unwritten_operands h
  · refine ⟨by simp, ?_⟩; rintro t ⟨⟩; exact .rejected _ (by decide)
  · refine ⟨by simp, ?_⟩; rintro t ⟨⟩; exact .built _ (by decide) _ _ _ (by simp) (by decide)

theorem buildWrite_end (s : State) : (∀ w, buildWriteBody s = .error w → Unwritten s w) ∧
    (∀ t, buildWriteBody s = .ok t → ExecEnd s .buildwr t) := by
  rcases buildWriteBody_cases s with ⟨w, h, e⟩ | ⟨o, -, -, e⟩ | ⟨o, w, -, -, h, e⟩ | ⟨o, data, -, hc, hd, e⟩ <;> rw [e]
  · refine ⟨?_, by simp⟩; rintro w ⟨⟩; exact unwritten_operands h
  · refine ⟨by simp, ?_⟩; rintro t ⟨⟩; exact .rejected _ (by decide)
  · refine ⟨?_, by simp⟩; rintro w ⟨⟩; exact unwritten_bytes h
  · refine ⟨by simp, ?_⟩
    rintro t ⟨⟩
    have hl := (readBytes_ok hd).1
    refine .built _ (by decide) _ _ _ ?_ ?_
    · simp only [writeRequestFrame_length, BitVec.toNat_ofNat]; omega
    · simp only [BitVec.toNat_ofNat]; omega

/-- Everything an instruction can do. -/
theorem exec_cases (i : Instr) (s : State) :
    (∃ what, Unwritten s what ∧ exec i s = .next (raiseUnwritten (faultingCommand i) what s)) ∨
      (∃ t, exec i s = .next t ∧ ExecEnd s i t) := by
  cases i with
  | enc16 =>
    obtain ⟨he, ho⟩ := encode_end (encode16Body_cases s)
    exact command_cases rfl rfl he (fun t h => ho t h ▸ .encoded _ (by decide) _)
  | enc32 =>
    obtain ⟨he, ho⟩ := encode_end (encode32Body_cases s)
    exact command_cases rfl rfl he (fun t h => ho t h ▸ .encoded _ (by decide) _)
  | encf32 =>
    obtain ⟨he, ho⟩ := encode_end (encode32Body_cases s)
    exact command_cases rfl rfl he (fun t h => ho t h ▸ .encoded _ (by decide) _)
  | dec16 =>
    exact command_cases rfl rfl (decode16_end s).1 (fun t h => by
      obtain ⟨v, rfl⟩ := (decode16_end s).2 t h; exact .decoded _ (by decide) v)
  | dec32 =>
    exact command_cases rfl rfl (decode32_end s).1 (fun t h => by
      obtain ⟨v, rfl⟩ := (decode32_end s).2 t h; exact .decoded _ (by decide) v)
  | decf32 =>
    exact command_cases rfl rfl (decode32_end s).1 (fun t h => by
      obtain ⟨v, rfl⟩ := (decode32_end s).2 t h; exact .decoded _ (by decide) v)
  | buildrd => exact command_cases rfl rfl (buildRead_end s).1 (buildRead_end s).2
  | buildwr => exact command_cases rfl rfl (buildWrite_end s).1 (buildWrite_end s).2
  | validate => exact validate_cases rfl (fun w h => unwritten_byte h) rfl
  | tidnext => exact .inr ⟨_, rfl, .tid⟩
  | badCommand opcode => exact .inr ⟨_, rfl, .bad opcode⟩
  | fcReadMultipleRegisters => exact validate_cases rfl (by simp) rfl
  | fcWriteMultipleRegisters => exact validate_cases rfl (by simp) rfl
  | fcExceptionRead => exact validate_cases rfl (by simp) rfl
  | fcExceptionWrite => exact validate_cases rfl (by simp) rfl
  | fcOther code => exact validate_cases rfl (by simp) rfl

end Sys2Proof.Machine
end

