-- ==== Sys2Proof/Laws/PerInstr.lean ====
section
/-!
SUPPORT. Statements made per instruction, about instructions as syntax. OneByte: every instruction is exactly one byte,
and the decoder of its layer reads that byte and nothing after it (30_encoding.md R70).
-/
namespace Sys2Proof.Laws.OneByte

/-- The instruction is one byte long, and decoding it leaves whatever follows it unread. -/
def Statement (i : Instr) : Prop :=
  (encode i).length = 1 ∧ ∀ rest, ∃ j, decode (layerOf i) (encode i ++ rest) = .ok (j, rest)

theorem ofEncode (i : Instr) : Statement i := ⟨rfl, fun _ => ⟨decodeByte (layerOf i) (encodeByte i), rfl⟩⟩

theorem enc16 : Statement .enc16 := ofEncode _
theorem enc32 : Statement .enc32 := ofEncode _
theorem encf32 : Statement .encf32 := ofEncode _
theorem dec16 : Statement .dec16 := ofEncode _
theorem dec32 : Statement .dec32 := ofEncode _
theorem decf32 : Statement .decf32 := ofEncode _
theorem buildrd : Statement .buildrd := ofEncode _
theorem buildwr : Statement .buildwr := ofEncode _
theorem validate : Statement .validate := ofEncode _
theorem tidnext : Statement .tidnext := ofEncode _
theorem badCommand (opcode : Byte) : Statement (.badCommand opcode) := ofEncode _
theorem fcReadMultipleRegisters : Statement .fcReadMultipleRegisters := ofEncode _
theorem fcWriteMultipleRegisters : Statement .fcWriteMultipleRegisters := ofEncode _
theorem fcExceptionRead : Statement .fcExceptionRead := ofEncode _
theorem fcExceptionWrite : Statement .fcExceptionWrite := ofEncode _
theorem fcOther (code : Byte) : Statement (.fcOther code) := ofEncode _

end Sys2Proof.Laws.OneByte
end

