-- ==== Sys2Proof/Tests/Slice0.lean ====
section
/-!
SUPPORT. Our own tests. Expected values are those of spec/95_test_vectors.md (the vector's id stands beside each test)
or are written out from the rule named. The second half holds a named witness for the hypotheses of each statement.
-/
namespace Sys2Proof.Tests
open Sys2Proof Sys2Proof.Machine

/-! ### States to test on -/

/-- A new instance with TID_INIT 0x0007 and RX_CAP 264 on a little-endian host. -/
def bench : State := State.resetWith { hostEndian := .little, tidInit := 0x0007#16, rxCap := 264 }

/-- bench with VAL written. -/
def withVal (v : Word) : State := { bench with val := OperandReg.of v }

/-- bench with the four lanes written. -/
def withLanes (b0 b1 b2 b3 : Byte) : State :=
  { bench with wb0 := OperandReg.of b0, wb1 := OperandReg.of b1, wb2 := OperandReg.of b2, wb3 := OperandReg.of b3 }

/-- bench with the operands of a request written. -/
def request (tid : Half) (unit : Byte) (start : Half) (count : Byte) (data : List Byte) : State :=
  { bench with
    tidin := OperandReg.of tid, unit := OperandReg.of unit, start := OperandReg.of start
    count := OperandReg.of count, wdb := Memory.writeBytes [] 0 data }

/-- bench with a frame of n bytes received, of which the given ones have been written, and VALIDATE's operands. -/
def responseOf (efc : Byte) (n : Half) (tid : Half) (frame : List Byte) : State :=
  { bench with
    efc := OperandReg.of efc, rxlen := OperandReg.of n, tidin := OperandReg.of tid
    rxb := Memory.writeBytes [] 0 frame }

/-- bench with a whole frame received. -/
def response (efc : Byte) (tid : Half) (frame : List Byte) : State :=
  responseOf efc (BitVec.ofNat 16 frame.length) tid frame

/-- bench with these actions still to be made. -/
def toDo (acts : List HostAction) : State := { bench with pending := acts }

/-- The values of WB0 to WB3. -/
def lanes (s : State) : List Byte := [s.wb0.value, s.wb1.value, s.wb2.value, s.wb3.value]

/-- STATUS, EXCODE, PAYOFF, PAYLEN and DESYNC. -/
def verdict (s : State) : Byte × Byte × Nat × Nat × Byte :=
  (s.status, s.excode, s.payoff.toNat, s.paylen.toNat, s.desync)

/-- TXB from address 0, TXLEN, EXPSIZE and STATUS. -/
def built (s : State) : List Byte × Nat × Nat × Byte :=
  (s.txb.map (fun cell => cell.2), s.txlen.toNat, s.expsize.toNat, s.status)

/-- Run one instruction. -/
def run (i : Instr) (s : State) : Option State := nextState (exec i s)

/-- A read response that passes every step (VAL-OK-STD). -/
def goodRead : List Byte :=
  [0x00#8, 0x07#8, 0x00#8, 0x00#8, 0x00#8, 0x07#8, 0x00#8, 0x03#8, 0x04#8, 0x3F#8, 0x80#8, 0x00#8, 0x00#8]

/-- A write response that passes every step (VAL-LEN-EQ). -/
def goodWrite : List Byte :=
  [0x00#8, 0x07#8, 0x00#8, 0x00#8, 0x00#8, 0x06#8, 0x00#8, 0x10#8, 0x00#8, 0x00#8, 0x00#8, 0x02#8]

/-- A read response of another transaction (VAL-TID). -/
def otherIdRead : List Byte :=
  [0x00#8, 0x08#8, 0x00#8, 0x00#8, 0x00#8, 0x07#8, 0x00#8, 0x03#8, 0x04#8, 0xD0#8, 0xD1#8, 0xD2#8, 0xD3#8]

/-! ### Well-formedness -/

/-- 0x01 is not a reserved opcode, and 0x06 and 0x30 are not. -/
theorem test_wf_refuses_assigned_opcode :
    (Instr.badCommand 0x01#8).wf = false ∧ (Instr.badCommand 0x06#8).wf = false ∧
      (Instr.badCommand 0x30#8).wf = false := by decide

/-- 0x03 and 0x90 are named function codes. -/
theorem test_wf_refuses_named_function_code :
    (Instr.fcOther 0x03#8).wf = false ∧ (Instr.fcOther 0x90#8).wf = false := by decide

/-! ### Decoding, from the maps of R71, R72 and R84 written bit by bit -/

theorem test_decode_codec_words :
    decode .command [0b00000001#8] = .ok (.enc16, []) ∧ decode .command [0b00000010#8] = .ok (.enc32, []) ∧
    decode .command [0b00000011#8] = .ok (.encf32, []) ∧ decode .command [0b00000100#8] = .ok (.dec16, []) ∧
    decode .command [0b00000101#8] = .ok (.dec32, []) ∧ decode .command [0b00000110#8] = .ok (.decf32, []) :=
  ⟨rfl, rfl, rfl, rfl, rfl, rfl⟩

theorem test_decode_frame_words :
    decode .command [0b00010000#8] = .ok (.buildrd, []) ∧ decode .command [0b00010001#8] = .ok (.buildwr, []) ∧
    decode .command [0b00100000#8] = .ok (.validate, []) ∧ decode .command [0b00110000#8] = .ok (.tidnext, []) :=
  ⟨rfl, rfl, rfl, rfl⟩

/-- The reserved bytes of BAD-1 and BAD-2. -/
theorem test_decode_reserved_words :
    decodeCommand 0b00000000#8 = .badCommand 0x00#8 ∧ decodeCommand 0b00000111#8 = .badCommand 0x07#8 ∧
    decodeCommand 0b00010010#8 = .badCommand 0x12#8 ∧ decodeCommand 0b11111111#8 = .badCommand 0xFF#8 :=
  ⟨rfl, rfl, rfl, rfl⟩

theorem test_decode_function_codes :
    decode .wire [0b00000011#8] = .ok (.fcReadMultipleRegisters, []) ∧
    decode .wire [0b00010000#8] = .ok (.fcWriteMultipleRegisters, []) ∧
    decode .wire [0b10000011#8] = .ok (.fcExceptionRead, []) ∧
    decode .wire [0b10010000#8] = .ok (.fcExceptionWrite, []) ∧
    decode .wire [0b00000100#8] = .ok (.fcOther 0x04#8, []) := ⟨rfl, rfl, rfl, rfl, rfl⟩

/-- R70: a decoder looks at one byte, and refuses no byte at all. -/
theorem test_decode_takes_one_byte :
    decode .command [0x20#8, 0xFF#8] = .ok (.validate, [0xFF#8]) ∧ decode .command [] = .error .noByte ∧
    decode .wire [] = .error .noByte := ⟨rfl, rfl, rfl⟩

theorem test_encode_command_and_function_code :
    encode .buildwr = [0x11#8] ∧ encode .fcExceptionRead = [0x83#8] ∧ encode (.badCommand 0x55#8) = [0x55#8] := by
  decide

/-- What the host's question about a table row gives, and that step runs it. -/
theorem test_table_word_runs :
    decodeTableWord 8 0x30 = some .tidnext ∧ decodeTableWord 8 0x83 = some (.badCommand 0x83#8) ∧
    step (bench.withFetchWord 8 0x30) = exec .tidnext bench := ⟨rfl, rfl, rfl⟩

/-! ### The codec -/

/-- ENC16-4. -/
theorem test_enc16_ignores_upper_half :
    (run .enc16 { withVal 0xABCD1234#32 with wb2 := OperandReg.of 0x77#8, wb3 := OperandReg.of 0x88#8 }).map lanes =
      some [0x12#8, 0x34#8, 0x77#8, 0x88#8] := by decide

/-- CODEC-END-2. -/
theorem test_enc32_little_endian_host :
    (run .enc32 (withVal 0x01020304#32)).map (fun s => (lanes s, s.endc)) =
      some ([0x01#8, 0x02#8, 0x03#8, 0x04#8], .little) := by decide

/-- ENCF32-5: a signalling NaN is not quieted. -/
theorem test_encf32_keeps_nan :
    (run .encf32 (withVal 0x7F800001#32)).map lanes = some [0x7F#8, 0x80#8, 0x00#8, 0x01#8] := by decide

/-- DEC16-2. -/
theorem test_dec16_clears_upper_half :
    (run .dec16 { withLanes 0x00#8 0x01#8 0xAA#8 0xBB#8 with val := OperandReg.of 0xFFFFFFFF#32 }).map
      (fun s => s.val.value) = some 0x00000001#32 := by decide

/-- DEC32-1. -/
theorem test_dec32_most_significant_first :
    (run .dec32 (withLanes 0x12#8 0x34#8 0x56#8 0x78#8)).map (fun s => s.val.value) = some 0x12345678#32 := by decide

/-- DECF32-3. -/
theorem test_decf32_negative_nan :
    (run .decf32 (withLanes 0xFF#8 0xC0#8 0x00#8 0x00#8)).map (fun s => s.val.value) = some 0xFFC00000#32 := by decide

/-- DEC32-4: the fault names WB2 and the command, and nothing else is written. -/
theorem test_dec32_faults_on_wb2 :
    run .dec32 { withLanes 0x12#8 0x34#8 0x00#8 0x78#8 with wb2 := OperandReg.unwritten 8 } =
      some { withLanes 0x12#8 0x34#8 0x00#8 0x78#8 with
        wb2 := OperandReg.unwritten 8, faulted := some { command := .dec32, what := .reg .wb2 } } := by decide

/-! ### Requests -/

/-- BR-3: all ones and the largest count. -/
theorem test_buildrd_largest_count :
    (run .buildrd (request 0xFFFF#16 0xFF#8 0xFFFF#16 127#8 [])).map built =
      some ([0xFF#8, 0xFF#8, 0x00#8, 0x00#8, 0x00#8, 0x06#8, 0xFF#8, 0x03#8, 0xFF#8, 0xFF#8, 0x00#8, 0x7F#8],
        12, 263, 0x00#8) := by decide

/-- BR-4. -/
theorem test_buildrd_rejects_count_128 :
    (run .buildrd (request 0x0001#16 0x00#8 0x0000#16 128#8 [])).map built = some ([], 0, 0, 0x31#8) := by decide

/-- BW-1. -/
theorem test_buildwr_two_registers :
    (run .buildwr (request 0x1234#16 0x01#8 0x0100#16 2#8 [0x41#8, 0x20#8, 0x00#8, 0x00#8])).map built =
      some ([0x12#8, 0x34#8, 0x00#8, 0x00#8, 0x00#8, 0x0B#8, 0x01#8, 0x10#8, 0x01#8, 0x00#8, 0x00#8, 0x02#8, 0x04#8,
        0x41#8, 0x20#8, 0x00#8, 0x00#8], 17, 12, 0x00#8) := by decide

/-- BW-6: the fourth data byte is missing. -/
theorem test_buildwr_faults_on_missing_data :
    (run .buildwr (request 0x1234#16 0x01#8 0x0100#16 2#8 [0x41#8, 0x20#8, 0x00#8])).map (fun s => s.faulted) =
      some (some { command := .buildwr, what := .byte .wdb 3 }) := by decide

/-! ### Validation -/

/-- VAL-OK-STD and VAL-TID. -/
theorem test_validate_read_response :
    (run .validate (response 0x03#8 0x0007#16 goodRead)).map verdict = some (0x00#8, 0x00#8, 9, 4, 0x00#8) ∧
    (run .validate (response 0x03#8 0x0007#16 otherIdRead)).map verdict = some (0x66#8, 0x00#8, 0, 0, 0x01#8) := by
  decide

/-- VAL-LEN-FFFF, VAL-LEN-FIRST-1 (size right, length wrong) and VAL-SIZE-1. -/
theorem test_validate_length_then_size :
    (run .validate (response 0x03#8 0x0007#16
      [0x00#8, 0x07#8, 0x00#8, 0x00#8, 0xFF#8, 0xFF#8, 0x00#8, 0x03#8, 0x04#8, 0xD0#8, 0xD1#8, 0xD2#8, 0xD3#8])).map
        verdict = some (0x64#8, 0x00#8, 0, 0, 0x01#8) ∧
    (run .validate (response 0x03#8 0x0007#16
      [0x00#8, 0x07#8, 0x00#8, 0x00#8, 0x00#8, 0x08#8, 0x00#8, 0x03#8, 0x04#8, 0xD0#8, 0xD1#8, 0xD2#8, 0xD3#8])).map
        verdict = some (0x64#8, 0x00#8, 0, 0, 0x01#8) ∧
    (run .validate (response 0x03#8 0x0007#16
      [0x00#8, 0x07#8, 0x00#8, 0x00#8, 0x00#8, 0x05#8, 0x00#8, 0x03#8, 0x02#8, 0xD0#8, 0xD1#8, 0xD2#8, 0xD3#8])).map
        verdict = some (0x65#8, 0x00#8, 0, 0, 0x01#8) := ⟨by decide, by decide, by decide⟩

/-- VAL-OK-STD and VAL-UFC-5, as the function code 0x03 sees them. -/
theorem test_fc_read_multiple_registers :
    (run .fcReadMultipleRegisters (response 0x03#8 0x0007#16 goodRead)).map verdict =
      some (0x00#8, 0x00#8, 9, 4, 0x00#8) ∧
    (run .fcReadMultipleRegisters (response 0x10#8 0x0007#16 goodRead)).map verdict =
      some (0x63#8, 0x00#8, 0, 0, 0x01#8) := by decide

/-- VAL-LEN-EQ and VAL-UFC-2, as the function code 0x10 sees them. -/
theorem test_fc_write_multiple_registers :
    (run .fcWriteMultipleRegisters (response 0x10#8 0x0007#16 goodWrite)).map verdict =
      some (0x00#8, 0x00#8, 8, 4, 0x00#8) ∧
    (run .fcWriteMultipleRegisters (response 0x03#8 0x0007#16 goodWrite)).map verdict =
      some (0x63#8, 0x00#8, 0, 0, 0x01#8) := by decide

/-- VAL-EXC-LEN: the length field is not read on an exception. -/
theorem test_fc_exception_read :
    (run .fcExceptionRead (response 0x03#8 0x0007#16
      [0x00#8, 0x07#8, 0x00#8, 0x00#8, 0xFF#8, 0xFF#8, 0x00#8, 0x83#8, 0x0B#8])).map verdict =
      some (0x27#8, 0x0B#8, 0, 0, 0x00#8) := by decide

/-- VAL-EXC-W. -/
theorem test_fc_exception_write :
    (run .fcExceptionWrite (response 0x10#8 0x1234#16
      [0x12#8, 0x34#8, 0x00#8, 0x00#8, 0x00#8, 0x03#8, 0x01#8, 0x90#8, 0x04#8])).map verdict =
      some (0x27#8, 0x04#8, 0, 0, 0x00#8) := by decide

/-- VAL-UFC-4. -/
theorem test_fc_other :
    (run (.fcOther 0x04#8) (response 0x03#8 0x0007#16
      [0x00#8, 0x07#8, 0x00#8, 0x00#8, 0x00#8, 0x03#8, 0x00#8, 0x04#8, 0x00#8])).map verdict =
      some (0x63#8, 0x00#8, 0, 0, 0x01#8) := by decide

/-! ### Transaction ids and reserved opcodes -/

/-- TID-4: the counter wraps silently. -/
theorem test_tidnext_wraps :
    (run .tidnext { bench with tidctr := 0xFFFF#16 }).map (fun s => (s.tidin, s.tidctr, s.status)) =
      some (OperandReg.of 0xFFFF#16, 0x0000#16, 0x00#8) := by decide

/-- BAD-4. -/
theorem test_bad_command_keeps_latch :
    run (.badCommand 0x55#8) { bench with desync := 0x01#8 } =
      some { bench with desync := 0x01#8, status := 0x39#8 } := by decide

/-! ### The host's side -/

/-- HOST-2 and HOST-3. -/
theorem test_host_write_ctrl :
    (nextState (hostWriteReg 0x03#8 0xFF#32 bench)).map (fun s => s.ctrl) = some 0x01#8 ∧
    (nextState (hostWriteReg 0x03#8 0xFE#32 bench)).map (fun s => s.ctrl) = some 0x00#8 := by decide

/-- HOST-4, HOST-5, HOST-6: read-only and reserved registers ignore a write. -/
theorem test_host_writes_ignored :
    nextState (hostWriteReg 0x01#8 0x55#32 bench) = some bench ∧
    nextState (hostWriteReg 0x15#8 0x12#32 bench) = some bench ∧
    nextState (hostWriteReg 0x13#8 0x1234#32 bench) = some bench := by decide

/-- HOST-1 and HOST-5. -/
theorem test_host_reads :
    (nextState (hostReadReg 0x03#8 bench)).map (fun s => s.lastRead) = some (some 0x01#32) ∧
    (nextState (hostReadReg 0x13#8 bench)).map (fun s => s.lastRead) = some (some 0x0007#32) ∧
    (nextState (hostReadReg 0xFF#8 bench)).map (fun s => s.lastRead) = some (some 0x00#32) := by decide

/-- R61: the ends of the buffers, with RX_CAP 264. -/
theorem test_host_buffer_ends :
    (nextState (hostWriteBuf .rxb 263 0xAA#8 bench)).map (fun s => s.rxb) = some [(263, 0xAA#8)] ∧
    hostWriteBuf .rxb 264 0xAA#8 bench = .fault (.outsideBuffer .rxb 264) ∧
    (nextState (hostWriteBuf .wdb 253 0xAA#8 bench)).map (fun s => s.wdb) = some [(253, 0xAA#8)] ∧
    hostReadBuf .wdb 254 bench = .fault (.outsideBuffer .wdb 254) ∧
    hostReadBuf .txb 267 bench = .fault (.outsideBuffer .txb 267) ∧
    hostWriteBuf .txb 266 0xAA#8 bench = .refused (.hostWriteTxb 266) :=
  ⟨by decide, rfl, by decide, rfl, rfl, rfl⟩

/-- A write that takes a byte's place, one below it and one above it, in canonical order. -/
theorem test_memory_write_order :
    Memory.write (Memory.write (Memory.write [(5, 0x01#8)] 7 0x02#8) 3 0x03#8) 5 0x04#8 =
      [(3, 0x03#8), (5, 0x04#8), (7, 0x02#8)] ∧
    Memory.wf [(3, 0x03#8), (3, 0x04#8)] = false := by decide

/-- R89 and P2 line 1: the expansion of a read request. -/
theorem test_expand_readreq :
    expand (.readreq 0x01#8 0x0010#16 0x01#8) =
      [.writeReg 0x00#8 0x30#32, .writeReg 0x0A#8 0x01#32, .writeReg 0x0B#8 0x10#32, .writeReg 0x0C#8 0x01#32,
       .writeReg 0x00#8 0x10#32] := by decide

/-- R89 and P3 line 2's form: RXLEN is the number of bytes, and a number that does not fit it does not wrap (log 17). -/
theorem test_rxframe_length :
    expand (.rxframe [0xAA#8, 0xBB#8]) =
      [.writeBuf .rxb 0 0xAA#8, .writeBuf .rxb 1 0xBB#8, .writeReg 0x0E#8 0x02#32] ∧
    rxlenValue 65535 = 0xFFFF#32 ∧ ¬ (rxlenValue (2 ^ 32 + 9)).toNat < 2 ^ regWidth .rxlen := by decide

/-- R213 steps 1 to 3: a write exchange with an id of the host's own (R88 forms, register numbers of R21). -/
theorem test_exchange_request :
    exchangeRequest { id := .given 0x1234#16, unit := 0x01#8, start := 0x0100#16, count := 0x01#8
                      kind := .write [0x41#8, 0x20#8] } =
      [.writeReg 0x09#8 0x1234#32, .writeReg 0x0A#8 0x01#32, .writeReg 0x0B#8 0x0100#32, .writeReg 0x0C#8 0x01#32,
       .writeBuf .wdb 0 0x41#8, .writeBuf .wdb 1 0x20#8, .writeReg 0x00#8 0x11#32, .readReg 0x01#8] := by decide

/-- R213 step 5: the payload slice after OK, EXCODE after DEVICE_EXCEPTION (P3 line 4), the end after 0x64 (P5 line 4). -/
theorem test_exchange_ends :
    (∃ t, finishExchange { bench with
      status := 0x00#8, payoff := 9#16, paylen := 2#16, rxb := [(8, 0x02#8), (9, 0x00#8), (10, 0x2A#8)] } =
        .next (t, .payload [0x00#8, 0x2A#8])) ∧
    (∃ t, finishExchange { bench with status := 0x27#8, excode := 0x02#8 } = .next (t, .exception 0x02#8)) ∧
    (∃ t, finishExchange { bench with status := 0x64#8 } = .next (t, .abandoned 0x64#8)) :=
  ⟨⟨_, rfl⟩, ⟨_, rfl⟩, ⟨_, rfl⟩⟩

/-- R197: a transport failure is TRANSPORT_ERROR, tier 1, fatal. -/
theorem test_transport_failure :
    compositeStatus .readFailed 0x00#8 = 0x58#8 ∧ compositeStatus (.received []) 0x62#8 = 0x62#8 := by decide

/-! ### Witnesses: a state and operands that meet the hypotheses of each statement, at the ends of their ranges -/

/-- DecodeEncodeRoundTrip: instructions with a byte of their own that are well-formed. -/
theorem test_witness_round_trip :
    (Instr.badCommand 0x31#8).wf = true ∧ (Instr.badCommand 0xFF#8).wf = true ∧ (Instr.fcOther 0x84#8).wf = true ∧
      Instr.enc16.wf = true := by decide

/-- ReservedOpcodesAreBadCommand: the ends of the reserved ranges, and their assigned neighbours. -/
theorem test_witness_reserved_opcodes :
    ([0x00#8, 0x07#8, 0x0F#8, 0x12#8, 0x1F#8, 0x21#8, 0x2F#8, 0x31#8, 0xFF#8].all reservedOpcode) = true ∧
    ([0x01#8, 0x06#8, 0x10#8, 0x11#8, 0x20#8, 0x30#8].any reservedOpcode) = false := by decide

/-- StepRunsTheDecodedCommand: a write of BUILDWR's opcode, a write of a reserved one, a read. -/
theorem test_witness_step_runs :
    (toDo [.writeReg 0x00#8 0x11#32]).faulted = none ∧
    (toDo [.writeReg 0x00#8 0x11#32]).pending = .writeReg 0x00#8 ((0x11#8).setWidth 32) :: [] ∧
    decode .command [0x11#8] = .ok (.buildwr, []) ∧
    (toDo [.writeReg 0x00#8 0x12#32]).pending = .writeReg 0x00#8 ((0x12#8).setWidth 32) :: [] ∧
    decode .command [0x12#8] = .ok (.badCommand 0x12#8, []) ∧
    (toDo [.readReg 0x00#8]).pending = .readReg 0x00#8 :: [] := ⟨rfl, rfl, rfl, rfl, rfl, rfl⟩

/-- HostWriteRegisterRule, the clause of writable registers: RXLEN and CTRL at their largest values. -/
theorem test_witness_write_operand :
    (toDo [.writeReg 0x0E#8 0xFFFF#32]).faulted = none ∧
    (toDo [.writeReg 0x0E#8 0xFFFF#32]).pending = .writeReg 0x0E#8 0xFFFF#32 :: [] ∧
    regOfNumber 0x0E#8 = some .rxlen ∧ hostWritable .rxlen = true ∧ RegName.rxlen ≠ .cmd ∧
    (0xFFFF#32).toNat < 2 ^ regWidth .rxlen ∧
    regOfNumber 0x03#8 = some .ctrl ∧ hostWritable .ctrl = true ∧ (0xFF#32).toNat < 2 ^ regWidth .ctrl := by decide

/-- HostWriteRegisterRule, the other clauses: CMD, read-only registers at both ends, reserved numbers at both ends. -/
theorem test_witness_write_others :
    regOfNumber 0x00#8 = some .cmd ∧ (0xFF#32).toNat < 256 ∧
    regOfNumber 0x01#8 = some .status ∧ hostWritable .status = false ∧
    regOfNumber 0x14#8 = some .desync ∧ hostWritable .desync = false ∧
    0x15 ≤ (0x15#8).toNat ∧ 0x15 ≤ (0xFF#8).toNat := by decide

/-- HostReadRegisterRule: a written register, an unwritten one, CMD and reserved numbers. -/
theorem test_witness_read_register :
    (toDo [.readReg 0x14#8]).faulted = none ∧ (toDo [.readReg 0x14#8]).pending = .readReg 0x14#8 :: [] ∧
    regOfNumber 0x14#8 = some .desync ∧ (regView .desync (toDo [.readReg 0x14#8])).written = true ∧
    regOfNumber 0x04#8 = some .val ∧ (regView .val (toDo [.readReg 0x04#8])).written = false ∧
    0x15 ≤ (0x15#8).toNat := by decide

/-- HostBufferAccess, inside the capacities: the last bytes of RXB and WDB written, the last byte of TXB read. -/
theorem test_witness_buffer_inside :
    (toDo [.writeBuf .rxb 263 0xAA#8]).faulted = none ∧
    (toDo [.writeBuf .rxb 263 0xAA#8]).pending = .writeBuf .rxb 263 0xAA#8 :: [] ∧
    263 < Buffer.rxb.capacity bench.params ∧ Buffer.rxb ≠ .txb ∧
    253 < Buffer.wdb.capacity bench.params ∧ Buffer.wdb ≠ .txb ∧
    266 < Buffer.txb.capacity bench.params ∧
    Memory.read (bufferOf .txb { toDo [.readBuf .txb 266] with txb := [(266, 0x55#8)] }) 266 = some 0x55#8 := by decide

/-- HostBufferAccess, outside: the first address past each buffer, and a write of TXB. -/
theorem test_witness_buffer_outside :
    (toDo [.writeBuf .wdb 254 0xAA#8]).pending = .writeBuf .wdb 254 0xAA#8 :: [] ∧
    ¬ 254 < Buffer.wdb.capacity bench.params ∧ ¬ 264 < Buffer.rxb.capacity bench.params ∧
    ¬ 267 < Buffer.txb.capacity bench.params ∧
    (toDo [.writeBuf .txb 266 0xAA#8]).pending = .writeBuf .txb 266 0xAA#8 :: [] ∧ 266 < 267 := by decide

/-- RepeatedHostReadsAgree: two reads of an unwritten register. -/
theorem test_witness_repeated_reads :
    ∃ t u : State, (toDo [.readReg 0x04#8, .readReg 0x04#8]).faulted = none ∧
      (toDo [.readReg 0x04#8, .readReg 0x04#8]).pending = .readReg 0x04#8 :: .readReg 0x04#8 :: [] ∧
      step (toDo [.readReg 0x04#8, .readReg 0x04#8]) = .next t ∧ step t = .next u := ⟨_, _, rfl, rfl, rfl, rfl⟩

/-- WaitsUnchangedAndFaultedIsQuiescent: each side. -/
theorem test_witness_waits :
    bench.pending = [] ∧ ({ bench with faulted := some { command := .enc16, what := .reg .val } } : State).faulted ≠ none :=
  by decide

/-- Enc16Rule, Enc32AndEncf32Rule, CodecRoundTrip: VAL written and unwritten. -/
theorem test_witness_encode :
    (withVal 0xFFFFFFFF#32).val.written = true ∧ bench.val.written = false ∧
    (Instr.encf32 = .enc32 ∨ Instr.encf32 = .encf32) := by decide

/-- Dec16Rule, Dec32AndDecf32Rule, CodecRoundTrip: the lanes written, and each one the lowest unwritten. -/
theorem test_witness_decode :
    (withLanes 0#8 1#8 2#8 3#8).wb0.written = true ∧ (withLanes 0#8 1#8 2#8 3#8).wb1.written = true ∧
    (withLanes 0#8 1#8 2#8 3#8).wb2.written = true ∧ (withLanes 0#8 1#8 2#8 3#8).wb3.written = true ∧
    bench.wb0.written = false ∧
    ({ withLanes 0#8 1#8 2#8 3#8 with wb1 := OperandReg.unwritten 8 } : State).wb1.written = false ∧
    ({ withLanes 0#8 1#8 2#8 3#8 with wb2 := OperandReg.unwritten 8 } : State).wb2.written = false ∧
    ({ withLanes 0#8 1#8 2#8 3#8 with wb3 := OperandReg.unwritten 8 } : State).wb3.written = false := by decide

/-- CodecCommandsNeverFail: the ends of its list. -/
theorem test_witness_codec_commands :
    Instr.enc16 ∈ [Instr.enc16, .enc32, .encf32, .dec16, .dec32, .decf32] ∧
    Instr.decf32 ∈ [Instr.enc16, .enc32, .encf32, .dec16, .dec32, .decf32] := by decide

/-- BuildrdRule, BuildwrRule, CountAbove127Rejected: operands written, COUNT on either side of 127, data written. -/
theorem test_witness_build :
    RequestOperandsWritten (request 1#16 1#8 1#16 127#8 []) ∧
    (request 1#16 1#8 1#16 127#8 []).count.value.toNat ≤ 127 ∧
    RequestOperandsWritten (request 1#16 1#8 1#16 128#8 []) ∧
    127 < (request 1#16 1#8 1#16 128#8 []).count.value.toNat ∧
    RequestOperandsWritten (request 1#16 1#8 1#16 1#8 [0xAA#8, 0xBB#8]) ∧
    WriteDataWritten (request 1#16 1#8 1#16 1#8 [0xAA#8, 0xBB#8]) ∧
    RequestOperandsWritten (request 1#16 1#8 1#16 0#8 []) ∧ WriteDataWritten (request 1#16 1#8 1#16 0#8 []) := by
  unfold RequestOperandsWritten WriteDataWritten
  decide

/-- BuildwrRule, the clause of missing data: the last of two bytes. -/
theorem test_witness_build_data_fault :
    RequestOperandsWritten (request 1#16 1#8 1#16 1#8 [0xAA#8]) ∧
    (request 1#16 1#8 1#16 1#8 [0xAA#8]).count.value.toNat ≤ 127 ∧
    1 < 2 * (request 1#16 1#8 1#16 1#8 [0xAA#8]).count.value.toNat ∧
    Memory.read (request 1#16 1#8 1#16 1#8 [0xAA#8]).wdb 1 = none ∧
    (∀ j, j < 1 → (Memory.read (request 1#16 1#8 1#16 1#8 [0xAA#8]).wdb j).isSome = true) := by
  unfold RequestOperandsWritten
  decide

/-- The operand faults of a build: each register the first unwritten one. -/
theorem test_witness_build_operand_faults :
    bench.tidin.written = false ∧
    ({ bench with tidin := OperandReg.of 1#16 } : State).tidin.written = true ∧
    ({ bench with tidin := OperandReg.of 1#16 } : State).unit.written = false ∧
    ({ request 1#16 1#8 1#16 1#8 [] with start := OperandReg.unwritten 16 } : State).unit.written = true ∧
    ({ request 1#16 1#8 1#16 1#8 [] with start := OperandReg.unwritten 16 } : State).start.written = false ∧
    ({ request 1#16 1#8 1#16 1#8 [] with count := OperandReg.unwritten 8 } : State).start.written = true ∧
    ({ request 1#16 1#8 1#16 1#8 [] with count := OperandReg.unwritten 8 } : State).count.written = false := by decide

/-- BuiltFrameLaws and BuildsIgnoreReceiveSide: an accepted build of each kind. -/
theorem test_witness_built_frame :
    (∃ t, (request 1#16 1#8 1#16 2#8 []).faulted = none ∧ exec .buildrd (request 1#16 1#8 1#16 2#8 []) = .next t ∧
      t.faulted = none ∧ t.status = 0x00#8) ∧
    (∃ t, exec .buildwr (request 1#16 1#8 1#16 1#8 [0xAA#8, 0xBB#8]) = .next t ∧ t.faulted = none ∧
      t.status = 0x00#8) := ⟨⟨_, rfl, rfl, rfl, rfl⟩, ⟨_, rfl, rfl, rfl⟩⟩

/-- ValidateArgumentCheck: an unsupported EFC, and RXLEN one above RX_CAP. -/
theorem test_witness_validate_arguments :
    (responseOf 0x83#8 9#16 7#16 []).efc.written = true ∧ (responseOf 0x83#8 9#16 7#16 []).rxlen.written = true ∧
    ((responseOf 0x83#8 9#16 7#16 []).efc.value ≠ 0x03#8 ∧ (responseOf 0x83#8 9#16 7#16 []).efc.value ≠ 0x10#8) ∧
    (responseOf 0x03#8 265#16 7#16 []).params.rxCap < (responseOf 0x03#8 265#16 7#16 []).rxlen.value.toNat := by decide

/-- ValidateTruncation at 8 bytes, and valid arguments at 9 and at RX_CAP, for both function codes. -/
theorem test_witness_validate_truncation :
    ValidArguments (responseOf 0x03#8 8#16 7#16 []) ∧ (responseOf 0x03#8 8#16 7#16 []).rxlen.value.toNat < 9 ∧
    ValidArguments (responseOf 0x10#8 9#16 7#16 []) ∧ 9 ≤ (responseOf 0x10#8 9#16 7#16 []).rxlen.value.toNat ∧
    ValidArguments (responseOf 0x03#8 264#16 7#16 []) := by
  unfold ValidArguments
  decide

/-- The nine-byte exception response VAL-EXC-R. -/
def exceptionRead : List Byte := [0x00#8, 0x07#8, 0x00#8, 0x00#8, 0x00#8, 0x03#8, 0x00#8, 0x83#8, 0x02#8]

/-- ValidateDeviceException: the exception of EFC 0x03, and the expected function code. -/
theorem test_witness_validate_exception :
    ValidArguments (response 0x03#8 7#16 exceptionRead) ∧
    9 ≤ (response 0x03#8 7#16 exceptionRead).rxlen.value.toNat ∧
    Received (response 0x03#8 7#16 exceptionRead) 7 ((response 0x03#8 7#16 exceptionRead).efc.value ||| 0x80#8) ∧
    Received (response 0x03#8 7#16 exceptionRead) 8 0x02#8 ∧
    Received (response 0x03#8 7#16 goodRead) 7 (response 0x03#8 7#16 goodRead).efc.value ∧
    (response 0x03#8 7#16 goodRead).faulted = none := by
  unfold ValidArguments Received
  decide

/-- ValidateUnexpectedFunctionCode: the exception of EFC 0x03 while 0x10 is expected (VAL-UFC-1). -/
theorem test_witness_validate_unexpected :
    ValidArguments (response 0x10#8 7#16 exceptionRead) ∧
    9 ≤ (response 0x10#8 7#16 exceptionRead).rxlen.value.toNat ∧
    Received (response 0x10#8 7#16 exceptionRead) 7 0x83#8 ∧
    0x83#8 ≠ (response 0x10#8 7#16 exceptionRead).efc.value ∧
    0x83#8 ≠ (response 0x10#8 7#16 exceptionRead).efc.value ||| 0x80#8 := by
  unfold ValidArguments Received
  decide

/-- goodWrite with its length field one too large (VAL-LEN-OVER). -/
def longWrite : List Byte :=
  [0x00#8, 0x07#8, 0x00#8, 0x00#8, 0x00#8, 0x07#8, 0x00#8, 0x10#8, 0x00#8, 0x00#8, 0x00#8, 0x02#8]

/-- ValidateLength: length n - 5 and length n - 6. -/
theorem test_witness_validate_length :
    (ValidArguments (response 0x10#8 7#16 longWrite) ∧ 9 ≤ (response 0x10#8 7#16 longWrite).rxlen.value.toNat ∧
      Received (response 0x10#8 7#16 longWrite) 7 (response 0x10#8 7#16 longWrite).efc.value ∧
      Received (response 0x10#8 7#16 longWrite) 4 0x00#8 ∧ Received (response 0x10#8 7#16 longWrite) 5 0x07#8 ∧
      (response 0x10#8 7#16 longWrite).rxlen.value.toNat < (0x00#8 ++ 0x07#8).toNat + 6) ∧
    (ValidArguments (response 0x10#8 7#16 goodWrite) ∧ 9 ≤ (response 0x10#8 7#16 goodWrite).rxlen.value.toNat ∧
      Received (response 0x10#8 7#16 goodWrite) 7 (response 0x10#8 7#16 goodWrite).efc.value ∧
      Received (response 0x10#8 7#16 goodWrite) 4 0x00#8 ∧ Received (response 0x10#8 7#16 goodWrite) 5 0x06#8 ∧
      (0x00#8 ++ 0x06#8).toNat + 6 ≤ (response 0x10#8 7#16 goodWrite).rxlen.value.toNat ∧
      (response 0x10#8 7#16 goodWrite).faulted = none) := by
  unfold ValidArguments Received
  exact ⟨by decide, by decide⟩

/-- A read response one byte shorter than its byte count says (VAL-SIZE-2). -/
def shortRead : List Byte :=
  [0x00#8, 0x07#8, 0x00#8, 0x00#8, 0x00#8, 0x06#8, 0x00#8, 0x03#8, 0x04#8, 0xD0#8, 0xD1#8, 0xD2#8]

/-- ValidateReadSize: a size that differs, one that agrees, and a write. -/
theorem test_witness_validate_size :
    (ValidArguments (response 0x03#8 7#16 shortRead) ∧ 9 ≤ (response 0x03#8 7#16 shortRead).rxlen.value.toNat ∧
      Received (response 0x03#8 7#16 shortRead) 7 (response 0x03#8 7#16 shortRead).efc.value ∧
      Received (response 0x03#8 7#16 shortRead) 4 0x00#8 ∧ Received (response 0x03#8 7#16 shortRead) 5 0x06#8 ∧
      (0x00#8 ++ 0x06#8).toNat + 6 ≤ (response 0x03#8 7#16 shortRead).rxlen.value.toNat ∧
      Received (response 0x03#8 7#16 shortRead) 8 0x04#8 ∧ (response 0x03#8 7#16 shortRead).efc.value = 0x03#8 ∧
      (response 0x03#8 7#16 shortRead).rxlen.value.toNat ≠ 9 + (0x04#8).toNat) ∧
    (Received (response 0x03#8 7#16 goodRead) 8 0x04#8 ∧
      (response 0x03#8 7#16 goodRead).rxlen.value.toNat = 9 + (0x04#8).toNat) ∧
    (response 0x10#8 7#16 goodWrite).efc.value = 0x10#8 ∧ Received (response 0x10#8 7#16 goodWrite) 8 0x00#8 := by
  unfold ValidArguments Received
  exact ⟨by decide, by decide, by decide⟩

/-- Steps 1 to 5 pass for a read response of this transaction and of another one, and for a write response. -/
theorem test_witness_passes_steps :
    PassesSteps1To5 (response 0x03#8 7#16 goodRead) ∧ PassesSteps1To5 (response 0x03#8 7#16 otherIdRead) ∧
    PassesSteps1To5 (response 0x10#8 7#16 goodWrite) := by
  unfold PassesSteps1To5 PassesLengthAndSize ValidArguments Received
  refine ⟨⟨by decide, by decide, by decide, ⟨0x00#8, 0x07#8, by decide⟩, fun _ => ⟨0x04#8, by decide⟩⟩,
    ⟨by decide, by decide, by decide, ⟨0x00#8, 0x07#8, by decide⟩, fun _ => ⟨0x04#8, by decide⟩⟩,
    ⟨by decide, by decide, by decide, ⟨0x00#8, 0x06#8, by decide⟩, fun h => absurd h (by decide)⟩⟩

/-- ValidateTransactionId and ValidateSuccess: the id differs, the id agrees, the check is off. -/
theorem test_witness_transaction :
    (tidchk (response 0x03#8 7#16 otherIdRead).ctrl = true ∧
      (response 0x03#8 7#16 otherIdRead).tidin.written = true ∧
      Received (response 0x03#8 7#16 otherIdRead) 0 0x00#8 ∧ Received (response 0x03#8 7#16 otherIdRead) 1 0x08#8 ∧
      (0x00#8 ++ 0x08#8 : Half) ≠ (response 0x03#8 7#16 otherIdRead).tidin.value) ∧
    TransactionMatches (response 0x03#8 7#16 goodRead) ∧ TransactionMatches (response 0x10#8 7#16 goodWrite) ∧
    tidchk ({ response 0x03#8 7#16 otherIdRead with ctrl := 0x00#8 } : State).ctrl = false := by
  unfold TransactionMatches Received
  exact ⟨by decide, .inr ⟨by decide, 0x00#8, 0x07#8, by decide⟩, .inr ⟨by decide, 0x00#8, 0x07#8, by decide⟩, by decide⟩

/-- ValidateResultRegisters: a fault, success of each kind, an exception, a failure. -/
theorem test_witness_validate_results :
    (∃ t, bench.faulted = none ∧ exec .validate bench = .next t ∧ t.faulted ≠ none) ∧
    (∃ t, (response 0x03#8 7#16 goodRead).faulted = none ∧ exec .validate (response 0x03#8 7#16 goodRead) = .next t ∧
      t.faulted = none ∧ t.status = 0x00#8 ∧ (response 0x03#8 7#16 goodRead).efc.value = 0x03#8) ∧
    (∃ t, exec .validate (response 0x10#8 7#16 goodWrite) = .next t ∧ t.faulted = none ∧ t.status = 0x00#8 ∧
      (response 0x10#8 7#16 goodWrite).efc.value = 0x10#8) ∧
    (∃ t, exec .validate (response 0x03#8 7#16 exceptionRead) = .next t ∧ t.faulted = none ∧ t.status = 0x27#8) ∧
    (∃ t, exec .validate (response 0x03#8 7#16 shortRead) = .next t ∧ t.faulted = none ∧ t.status ≠ 0x00#8 ∧
      t.status ≠ 0x27#8) :=
  ⟨⟨_, rfl, rfl, by decide⟩, ⟨_, rfl, rfl, rfl, rfl, rfl⟩, ⟨_, rfl, rfl, rfl, rfl⟩, ⟨_, rfl, rfl, rfl⟩,
    ⟨_, rfl, rfl, by decide, by decide⟩⟩

/-- ValidateReadsNothingElse: VAL-UNREAD has the six bytes in common with goodRead, and no others. -/
theorem test_witness_unread_bytes :
    ∀ a, a ∈ [0, 1, 4, 5, 7, 8] →
      Memory.read [(0, 0x00#8), (1, 0x07#8), (4, 0x00#8), (5, 0x07#8), (7, 0x03#8), (8, 0x04#8)] a =
        Memory.read (response 0x03#8 7#16 goodRead).rxb a := by decide

/-- ValidateLaws and WrittenOperandsNeverFault: everything VALIDATE may read has been written. -/
theorem test_witness_validate_laws :
    (response 0x03#8 7#16 goodRead).faulted = none ∧ ValidArguments (response 0x03#8 7#16 goodRead) ∧
    ValidateBytesWritten (response 0x03#8 7#16 goodRead) ∧ (response 0x03#8 7#16 goodRead).tidin.written = true := by
  unfold ValidArguments ValidateBytesWritten
  decide

/-- ValidateFaultsInOrder, the argument and header clauses: VAL-F-EFC, VAL-F-RXLEN, VAL-F-B7, VAL-F-B8, VAL-F-B4. -/
theorem test_witness_validate_faults :
    bench.efc.written = false ∧
    ({ bench with efc := OperandReg.of 0x03#8 } : State).efc.written = true ∧
    ({ bench with efc := OperandReg.of 0x03#8 } : State).rxlen.written = false ∧
    ValidArguments (responseOf 0x03#8 9#16 7#16 []) ∧ 9 ≤ (responseOf 0x03#8 9#16 7#16 []).rxlen.value.toNat ∧
    Memory.read (responseOf 0x03#8 9#16 7#16 []).rxb 7 = none ∧
    Memory.read [(7, 0x83#8)] 7 = some (0x03#8 ||| 0x80#8) ∧ Memory.read [(7, 0x83#8)] 8 = none ∧
    Memory.read [(7, 0x03#8)] 7 = some 0x03#8 ∧ Memory.read [(7, 0x03#8)] 4 = none ∧
    Memory.read [(4, 0x00#8), (7, 0x03#8)] 4 = some 0x00#8 ∧ Memory.read [(4, 0x00#8), (7, 0x03#8)] 5 = none ∧
    Memory.read [(4, 0x00#8), (5, 0x03#8), (7, 0x03#8)] 5 = some 0x03#8 ∧ (0x00#8 ++ 0x03#8).toNat + 6 ≤ 9 ∧
    Memory.read [(4, 0x00#8), (5, 0x03#8), (7, 0x03#8)] 8 = none := by
  unfold ValidArguments
  exact ⟨by decide, by decide, by decide, by decide, by decide, by decide, by decide, by decide, by decide, by decide,
    by decide, by decide, by decide, by decide, by decide⟩

/-- goodWrite with bytes 0 and 1 as given, or missing. -/
def writeWithId (id : Memory) : State :=
  { response 0x10#8 7#16 [] with
    rxlen := OperandReg.of 12#16, rxb := id ++ [(4, 0x00#8), (5, 0x06#8), (7, 0x10#8)] }

/-- ValidateFaultsInOrder, the transaction clauses: VAL-F-TIDIN, and bytes 0 and 1 missing in turn. -/
theorem test_witness_validate_id_faults :
    PassesSteps1To5 (writeWithId []) ∧ tidchk (writeWithId []).ctrl = true ∧
    ({ writeWithId [] with tidin := OperandReg.unwritten 16 } : State).tidin.written = false ∧
    (writeWithId []).tidin.written = true ∧ Memory.read (writeWithId []).rxb 0 = none ∧
    PassesSteps1To5 (writeWithId [(0, 0x00#8)]) ∧ Received (writeWithId [(0, 0x00#8)]) 0 0x00#8 ∧
    Memory.read (writeWithId [(0, 0x00#8)]).rxb 1 = none := by
  unfold PassesSteps1To5 PassesLengthAndSize ValidArguments Received
  exact ⟨⟨by decide, by decide, by decide, ⟨0x00#8, 0x06#8, by decide⟩, fun h => absurd h (by decide)⟩, by decide,
    by decide, by decide, by decide,
    ⟨by decide, by decide, by decide, ⟨0x00#8, 0x06#8, by decide⟩, fun h => absurd h (by decide)⟩, by decide,
    by decide⟩

/-- ValidateRunsTheWireFunctionCode, NormalFunctionCodes, ExceptionFunctionCodes, OtherFunctionCodes. -/
theorem test_witness_function_codes :
    Received (response 0x03#8 7#16 goodRead) 7 0x03#8 ∧
    ValidArguments (response 0x03#8 7#16 goodRead) ∧ 9 ≤ (response 0x03#8 7#16 goodRead).rxlen.value.toNat ∧
    (response 0x03#8 7#16 goodRead).efc.value = 0x03#8 ∧
    ValidArguments (response 0x10#8 7#16 goodWrite) ∧ 9 ≤ (response 0x10#8 7#16 goodWrite).rxlen.value.toNat ∧
    (response 0x10#8 7#16 goodWrite).efc.value = 0x10#8 ∧
    Received (response 0x03#8 7#16 exceptionRead) 8 0x02#8 ∧ Received (response 0x10#8 7#16 exceptionRead) 8 0x02#8 ∧
    (Instr.fcOther 0x02#8).wf = true ∧ (Instr.fcOther 0x91#8).wf = true := by
  unfold ValidArguments Received
  decide

/-- NormalFunctionCodes: steps 4 and 5 pass for each kind (step 6 as in test_witness_transaction). -/
theorem test_witness_length_and_size :
    PassesLengthAndSize (response 0x03#8 7#16 goodRead) ∧ PassesLengthAndSize (response 0x10#8 7#16 goodWrite) :=
  ⟨test_witness_passes_steps.1.2.2.2, test_witness_passes_steps.2.2.2.2.2⟩

/-- OnlyTidnextWritesTidctr, InstructionsKeepForeignState, FinishSetsStatusAndLatch: a run with a fatal code and one
with a code that is not. -/
theorem test_witness_finish :
    (∃ t, (response 0x03#8 7#16 shortRead).faulted = none ∧ exec .validate (response 0x03#8 7#16 shortRead) = .next t ∧
      t.faulted = none ∧ statusFatalField t.status = true) ∧
    (∃ t, bench.faulted = none ∧ exec .tidnext bench = .next t ∧ t.faulted = none ∧
      statusFatalField t.status = false) := ⟨⟨_, rfl, rfl, rfl, by decide⟩, ⟨_, rfl, rfl, rfl, by decide⟩⟩

/-- TransactionIdSequence: a run of one step that takes a TIDNEXT. -/
theorem test_witness_sequence :
    ∃ t : State, Host.Core.run core 1 (toDo [commandLine .tidnext]) = .next t ∧ t.pending = [] ∧
      tidnextCount [commandLine .tidnext] = 1 := ⟨_, rfl, rfl, by decide⟩

/-- FaultWritesOnlyTheMark: P6. -/
theorem test_witness_fault :
    ∃ t, bench.faulted = none ∧ exec .dec16 { bench with wb0 := OperandReg.of 0x12#8 } = .next t ∧
      t.faulted = some { command := .dec16, what := .reg .wb1 } := ⟨_, rfl, rfl, rfl⟩

/-- LatchIsStickyAndInert: VAL-LATCH's second command, as a host action. -/
theorem test_witness_latch :
    ∃ t, step { response 0x03#8 7#16 goodRead with desync := 0x01#8, pending := [commandLine .validate] } = .next t ∧
      desyncLatch (0x01#8) = true ∧ t.status = 0x00#8 := ⟨_, rfl, by decide, rfl⟩

/-- StepKeepsInvariant: a state with a request built and a command to run. -/
theorem test_witness_invariant :
    MachineInv { request 7#16 1#8 2#16 1#8 [0xAA#8, 0xBB#8] with
      txb := [(0, 0x00#8), (1, 0x07#8)], txlen := 2#16, payoff := 9#16, paylen := 255#16
      pending := [commandLine .buildwr] } ∧
    ∃ t, step { request 7#16 1#8 2#16 1#8 [0xAA#8, 0xBB#8] with
      txb := [(0, 0x00#8), (1, 0x07#8)], txlen := 2#16, payoff := 9#16, paylen := 255#16
      pending := [commandLine .buildwr] } = .next t :=
  ⟨⟨by decide, by decide, by decide, by decide, by decide, by decide, by decide, by decide, by decide⟩, _, rfl⟩

/-- ResetMeetsInvariant: the smallest RX_CAP. -/
theorem test_witness_reset : 264 ≤ bench.params.rxCap := by decide

/-- HostBufferAccess, the clause of unwritten bytes: the last byte of each buffer. -/
theorem test_witness_buffer_unwritten :
    (toDo [.readBuf .rxb 263]).faulted = none ∧ (toDo [.readBuf .rxb 263]).pending = .readBuf .rxb 263 :: [] ∧
    263 < Buffer.rxb.capacity (toDo [.readBuf .rxb 263]).params ∧
    Memory.read (bufferOf .rxb (toDo [.readBuf .rxb 263])) 263 = none ∧
    253 < Buffer.wdb.capacity bench.params ∧ Memory.read (bufferOf .wdb bench) 253 = none ∧
    266 < Buffer.txb.capacity bench.params ∧ Memory.read (bufferOf .txb bench) 266 = none := by decide

/-- RejectedExchangeSendsNothing: COUNT 128, a write whose data fill WDB. -/
theorem test_witness_rejected_exchange :
    bench.faulted = none ∧ 127 < (128#8).toNat ∧
    ∀ data, RequestKind.write (List.replicate 254 0x00#8) = .write data → data.length ≤ 254 := by
  refine ⟨by decide, by decide, fun data h => ?_⟩
  cases h
  exact Nat.le_of_eq List.length_replicate

/-- ExchangeSendsWhatWasBuilt: STATUS 0x31, and STATUS 0x00 with a frame of two bytes. -/
theorem test_witness_exchange_sends :
    bench.faulted = none ∧ statusCodeField 0x31#8 ≠ codeOf .ok ∧
    statusCodeField ({ bench with txb := [(0, 0x07#8), (1, 0x08#8)], txlen := 2#16 } : State).status = codeOf .ok ∧
    ({ bench with txb := [(0, 0x07#8), (1, 0x08#8)], txlen := 2#16 } : State).txlen.toNat ≤ 267 ∧
    [0x07#8, 0x08#8].length = ({ bench with txlen := 2#16 } : State).txlen.toNat ∧
    (∀ a, a < 2 → Memory.read [(0, 0x07#8), (1, 0x08#8)] a = [0x07#8, 0x08#8][a]?) := by decide

/-- ExchangeEndsByStatus: the largest slice's end, and a status of each of the other kinds. -/
theorem test_witness_exchange_ends :
    statusCodeField 0x00#8 = codeOf .ok ∧
    (263#16).toNat + (1#16).toNat ≤ bench.params.rxCap ∧ [0xAA#8].length = (1#16).toNat ∧
    (∀ k, k < (1#16).toNat → Memory.read [(263, 0xAA#8)] ((263#16).toNat + k) = [0xAA#8][k]?) ∧
    statusCodeField 0x27#8 = codeOf .deviceException ∧
    statusCodeField 0x66#8 ≠ codeOf .ok ∧ statusCodeField 0x66#8 ≠ codeOf .deviceException ∧
    statusFatalField 0x66#8 = true ∧
    statusCodeField 0x3A#8 ≠ codeOf .ok ∧ statusCodeField 0x3A#8 ≠ codeOf .deviceException ∧
    statusFatalField 0x3A#8 = false := by
  exact ⟨by decide, by decide, by decide, by decide, by decide, by decide, by decide, by decide, by decide, by decide,
    by decide⟩

end Sys2Proof.Tests
end

section
/-!
PROOFS. The state right after reset (10_state.md R47, 70_reset_and_hazards.md R210).
-/
namespace Sys2Proof.Machine

/-- The registers whose reset value R47 leaves unspecified. -/
def unspecifiedAtReset : List RegName :=
  [.val, .wb0, .wb1, .wb2, .wb3, .tidin, .unit, .start, .count, .efc, .rxlen]

/-- At reset a register's written flag is clear exactly where R47 leaves its value unspecified (R43). -/
theorem regView_resetWith_written_eq_false_iff (p : Params) (r : RegName) :
    (regView r (State.resetWith p)).written = false ↔ r ∈ unspecifiedAtReset := by
  cases r <;> simp [regView, State.resetWith, OperandReg.of, OperandReg.unwritten, unspecifiedAtReset]

/-- At reset every byte of every buffer is unwritten (R43). -/
@[simp] theorem read_bufferOf_resetWith (p : Params) (b : Buffer) (a : Nat) :
    Memory.read (bufferOf b (State.resetWith p)) a = none := by
  cases b <;> exact Memory.read_nil a

/-- RX_CAP is at least its minimum, whatever the open excess is (R6). -/
theorem rxCap_reset_ge : 264 ≤ State.reset.params.rxCap :=
  Nat.le_add_left 264 Config.rxCapExcess

/-- Settles O12: the registers with a reset value are read off the fields of the new instance; the clear written
flags of registers and buffer bytes are each a lemma of their own. -/
theorem resetValues : Obligations.ResetValues := by
  refine ⟨rfl, rxCap_reset_ge, ?_⟩
  rintro p _ rfl
  have flags : ∀ r ∈ unspecifiedAtReset, (regView r (State.resetWith p)).written = false :=
    fun r => (regView_resetWith_written_eq_false_iff p r).mpr
  exact ⟨rfl, rfl, rfl, rfl, rfl, rfl, rfl, rfl, rfl, rfl, rfl, rfl, rfl, flags, read_bufferOf_resetWith p⟩

end Sys2Proof.Machine
end

section
/-!
PROOFS. The command opcodes and the reserved ones (30_encoding.md R71, R72), and a host write of a byte to CMD (R32).
-/
namespace Sys2Proof

/-- The assigned opcodes are the keys of R71's map. -/
def assignedOpcodes : List Byte := commandMap.map Prod.fst

/-- R72's ranges are what R71's map leaves. -/
theorem reservedOpcode_iff_notMem_assignedOpcodes (b : Byte) :
    reservedOpcode b = true ↔ b ∉ assignedOpcodes := by
  simp only [reservedOpcode, assignedOpcodes, commandMap, List.map_cons, List.map_nil, List.mem_cons, List.not_mem_nil,
    or_false, BitVec.toNat_eq, BitVec.toNat_ofNat, Bool.or_eq_true, Bool.and_eq_true, beq_iff_eq, decide_eq_true_eq]
  omega

/-- A byte decodes to BAD_COMMAND exactly where R71's map has no row for it. -/
theorem decodeCommand_eq_badCommand_iff (b : Byte) : decodeCommand b = .badCommand b ↔ b ∉ assignedOpcodes := by
  have row : ∀ b ∈ assignedOpcodes, decodeCommand b ≠ .badCommand b := by decide
  refine ⟨fun h hm => row b hm h, fun h => ?_⟩
  have noRow : commandMap.lookup b = none :=
    List.lookup_eq_none_iff.mpr fun p hp => bne_iff_ne.mpr fun e => h (e ▸ List.mem_map_of_mem hp)
  simp only [decodeCommand, noRow, Option.getD_none]

theorem reservedOpcode_iff_decodeCommand (b : Byte) :
    reservedOpcode b = true ↔ decodeCommand b = .badCommand b :=
  (reservedOpcode_iff_notMem_assignedOpcodes b).trans (decodeCommand_eq_badCommand_iff b).symm

/-- R72's count: 39 of the 49 opcodes below 0x31, and all 207 from there up. -/
theorem length_filter_reservedOpcode :
    ((List.range 256).filter (fun n => reservedOpcode (BitVec.ofNat 8 n))).length = 246 := by
  have parts : List.range 256 = List.range' 0 49 ++ List.range' 49 207 := by
    rw [List.range_eq_range', List.range'_append_1]
  have low : ((List.range' 0 49).filter (fun n => reservedOpcode (BitVec.ofNat 8 n))).length = 39 := by decide
  have high : (List.range' 49 207).filter (fun n => reservedOpcode (BitVec.ofNat 8 n)) = List.range' 49 207 := by
    refine List.filter_eq_self.mpr fun n hn => ?_
    have bounds := List.mem_range'_1.mp hn
    have value : (BitVec.ofNat 8 n).toNat = n := Nat.mod_eq_of_lt bounds.2
    simp [reservedOpcode, value, bounds.1]
  rw [parts, List.filter_append, List.length_append, low, high, List.length_range']

namespace Machine

/-- A host write of a byte to CMD runs the command it decodes to (R32, R44). -/
theorem hostWriteReg_cmd (b : Byte) (s : State) :
    hostWriteReg 0x00#8 (b.setWidth 32) s = exec (decodeCommand b) s := by
  have hr : regOfNumber 0x00#8 = some .cmd := rfl
  have hv : (b.setWidth 32 : Word).toNat < 2 ^ regWidth .cmd := by
    rw [BitVec.toNat_setWidth]
    exact Nat.lt_of_le_of_lt (Nat.mod_le _ _) b.isLt
  have hb : (b.setWidth 32 : Word).setWidth 8 = b := by simp
  simp only [hostWriteReg, hr, hostWritable, if_true, hv, runCommand_eq, hb]

/-- Settles O4: R72's ranges are what R71's map leaves, so a reserved byte, run from CMD as it decodes, is
BAD_COMMAND. -/
theorem reservedOpcodesAreBadCommand : Obligations.ReservedOpcodesAreBadCommand := by
  refine ⟨reservedOpcode_iff_decodeCommand, length_filter_reservedOpcode, fun b s h => ?_⟩
  rw [hostWriteReg_cmd, (reservedOpcode_iff_decodeCommand b).mp h]

end Machine
end Sys2Proof
end

section
/-!
PROOFS. The wire codec commands (40_wire_codec.md R105 to R108, R110, R111): what a codec command that ends with OK
leaves as it was, the state each command ends in once its operands are written, and the place it faults on otherwise.
-/
namespace Sys2Proof.Machine

/-! ### What a codec command leaves as it was -/

/-- A codec command goes from s to t with OK: STATUS, the cached byte order, and everything but the changed registers
as it was (R101). -/
def CodecEnd (changed : List RegName) (s t : State) : Prop :=
  t.status = 0x00#8 ∧ EndcCached s t ∧ SameRegsBut changed s t ∧ SameBuffers s t ∧ SameSurroundings s t

/-- The lanes in wire order (R24). -/
def laneNames : List RegName := [.wb0, .wb1, .wb2, .wb3]

/-- To hold the byte order that R101 determines is to have cached it (R42). -/
theorem endcCached_of_endc_eq {s t : State} (h : t.endc = cacheOf (codecEndian s)) : EndcCached s t := by
  unfold EndcCached
  rw [h, codecEndian]
  cases s.endc <;> simp [cacheOf]

/-- A lane that no wire byte reaches keeps what it held. -/
theorem laneAfter_of_length_le {wire : List Byte} {k : Nat} (h : wire.length ≤ k) (old : OperandReg 8) :
    laneAfter wire k old = old := by
  simp [laneAfter, List.getElem?_eq_none h]

/-- An encode changes no register but STATUS and as many lanes as it has wire bytes. -/
theorem sameRegsBut_encoded (wire : List Byte) (s : State) :
    SameRegsBut (laneNames.take wire.length ++ [.status]) s
      (finish .ok (writeLanes wire (determineEndian s))) := by
  intro r hr
  have notReached : ∀ k, laneNames[k]? = some r → wire.length ≤ k := fun k hk => by
    by_contra hlt
    have taken : (laneNames.take wire.length)[k]? = some r := by rw [List.getElem?_take_of_lt (by omega), hk]
    exact hr (List.mem_append_left _ (List.mem_of_getElem? taken))
  cases r with
  | status => simp at hr
  | wb0 => simp [regView, laneAfter_of_length_le (notReached 0 rfl)]
  | wb1 => simp [regView, laneAfter_of_length_le (notReached 1 rfl)]
  | wb2 => simp [regView, laneAfter_of_length_le (notReached 2 rfl)]
  | wb3 => simp [regView, laneAfter_of_length_le (notReached 3 rfl)]
  | _ => rfl

/-- A decode changes no register but VAL and STATUS. -/
theorem sameRegsBut_decoded (v : Word) (s : State) :
    SameRegsBut [.val, .status] s (finish .ok (writeVal v (determineEndian s))) := by
  intro r hr
  cases r with
  | val => simp at hr
  | status => simp at hr
  | _ => rfl

theorem codecEnd_encoded (wire : List Byte) (s : State) :
    CodecEnd (laneNames.take wire.length ++ [.status]) s (finish .ok (writeLanes wire (determineEndian s))) :=
  ⟨rfl, endcCached_of_endc_eq rfl, sameRegsBut_encoded wire s, fun b _ => by cases b <;> rfl, rfl, rfl, rfl, rfl, rfl⟩

theorem codecEnd_decoded (v : Word) (s : State) :
    CodecEnd [.val, .status] s (finish .ok (writeVal v (determineEndian s))) :=
  ⟨rfl, endcCached_of_endc_eq rfl, sameRegsBut_decoded v s, fun b _ => by cases b <;> rfl, rfl, rfl, rfl, rfl, rfl⟩

/-! ### From a body to its command -/

theorem exec_of_body_ok {i : Instr} {s t : State} {body : Except Place State} (he : exec i s = commit i s body)
    (h : body = .ok t) : exec i s = .next t := by
  rw [he, h, commit_ok]

theorem faultsOn_of_body_error {i : Instr} {s : State} {body : Except Place State} {what : Place}
    (he : exec i s = commit i s body) (h : body = .error what) : FaultsOn i i s what := by
  rw [FaultsOn, he, h, commit_error, raiseUnwritten]

/-- ENC32 and ENCF32 run one body (R107). -/
theorem exec_eq_commit_encode32Body {i : Instr} (hi : i = .enc32 ∨ i = .encf32) (s : State) :
    exec i s = commit i s (encode32Body s) := by
  rcases hi with rfl | rfl <;> rfl

/-- DEC32 and DECF32 run one body (R111). -/
theorem exec_eq_commit_decode32Body {i : Instr} (hi : i = .dec32 ∨ i = .decf32) (s : State) :
    exec i s = commit i s (decode32Body s) := by
  rcases hi with rfl | rfl <;> rfl

/-! ### The state a codec command ends in -/

/-- The bytes of VAL[15:0] are the two low bytes of VAL: VAL[31:16] is ignored (R105). -/
theorem be16_lowHalf (v : Word) : be16 (v.extractLsb' 0 16) = [v.extractLsb' 8 8, v.extractLsb' 0 8] := by
  have high : (v.extractLsb' 0 16).extractLsb' 8 8 = v.extractLsb' 8 8 := by ext; simp
  have low : (v.extractLsb' 0 16).extractLsb' 0 8 = v.extractLsb' 0 8 := by ext; simp
  rw [be16, high, low]

theorem exec_enc16_of_written {s : State} (h : s.val.written = true) :
    exec .enc16 s = .next (finish .ok
      (writeLanes [s.val.value.extractLsb' 8 8, s.val.value.extractLsb' 0 8] (determineEndian s))) :=
  exec_of_body_ok rfl (by simpa [h, be16_lowHalf] using encode16Body_cases s)

theorem exec_enc32_of_written {i : Instr} {s : State} (hi : i = .enc32 ∨ i = .encf32) (h : s.val.written = true) :
    exec i s = .next (finish .ok (writeLanes (be32 s.val.value) (determineEndian s))) :=
  exec_of_body_ok (exec_eq_commit_encode32Body hi s) (by simpa [h] using encode32Body_cases s)

theorem exec_dec16_of_written {s : State} (h0 : s.wb0.written = true) (h1 : s.wb1.written = true) :
    exec .dec16 s = .next (finish .ok
      (writeVal ((joinBE16 s.wb0.value s.wb1.value).setWidth 32) (determineEndian s))) :=
  exec_of_body_ok rfl (by simpa [h0, h1] using decode16Body_cases s)

theorem exec_dec32_of_written {i : Instr} {s : State} (hi : i = .dec32 ∨ i = .decf32) (h0 : s.wb0.written = true)
    (h1 : s.wb1.written = true) (h2 : s.wb2.written = true) (h3 : s.wb3.written = true) :
    exec i s = .next (finish .ok
      (writeVal (joinBE32 s.wb0.value s.wb1.value s.wb2.value s.wb3.value) (determineEndian s))) :=
  exec_of_body_ok (exec_eq_commit_decode32Body hi s) (by simpa [h0, h1, h2, h3] using decode32Body_cases s)

/-! ### The rules -/

/-- Settles O13: the end state is an encode's with two wire bytes, so its frame is that of two lanes. -/
theorem enc16Rule : Obligations.Enc16Rule := by
  refine ⟨rfl, fun s => ⟨fun h => ?_, fun h => ?_⟩⟩
  · exact ⟨_, exec_enc16_of_written h, rfl, rfl, codecEnd_encoded _ s⟩
  · exact faultsOn_of_body_error rfl (by simpa [h] using encode16Body_cases s)

/-- Settles O14: both commands run one body, and the end state is an encode's with four wire bytes. -/
theorem enc32AndEncf32Rule : Obligations.Enc32AndEncf32Rule := by
  refine ⟨rfl, rfl, fun s i hi => ⟨fun h => ?_, fun h => ?_⟩⟩
  · exact ⟨_, exec_enc32_of_written hi h, rfl, rfl, rfl, rfl, codecEnd_encoded _ s⟩
  · exact faultsOn_of_body_error (exec_eq_commit_encode32Body hi s) (by simpa [h] using encode32Body_cases s)

/-- Settles O15: the body's three ends are the three clauses, and none of them asks anything of WB2 and WB3. -/
theorem dec16Rule : Obligations.Dec16Rule := by
  refine ⟨rfl, fun s => ⟨fun h0 h1 => ?_, fun h0 => ?_, fun h0 h1 => ?_⟩⟩
  · exact ⟨_, exec_dec16_of_written h0 h1, rfl, codecEnd_decoded _ s⟩
  · exact faultsOn_of_body_error rfl (by simpa [h0] using decode16Body_cases s)
  · exact faultsOn_of_body_error rfl (by simpa [h0, h1] using decode16Body_cases s)

/-- Settles O16: both commands run one body, whose five ends are the five clauses. -/
theorem dec32AndDecf32Rule : Obligations.Dec32AndDecf32Rule := by
  refine ⟨rfl, rfl, fun s i hi => ?_⟩
  have he := exec_eq_commit_decode32Body hi s
  have ends := decode32Body_cases s
  refine ⟨fun h0 h1 h2 h3 => ?_, fun h0 => ?_, fun h0 h1 => ?_, fun h0 h1 h2 => ?_, fun h0 h1 h2 h3 => ?_⟩
  · exact ⟨_, exec_dec32_of_written hi h0 h1 h2 h3, rfl, codecEnd_decoded _ s⟩
  · exact faultsOn_of_body_error he (by simpa [h0] using ends)
  · exact faultsOn_of_body_error he (by simpa [h0, h1] using ends)
  · exact faultsOn_of_body_error he (by simpa [h0, h1, h2] using ends)
  · exact faultsOn_of_body_error he (by simpa [h0, h1, h2, h3] using ends)

end Sys2Proof.Machine
end

section
/-!
PROOFS. The request-building commands (41_frame_build.md R120, R121, R124): the operand faults, the count rejection and
the accepted request are each said once for a command whose body ends so, and both builds are instances.
-/
namespace Sys2Proof.Machine

/-! ### How a build ends, from how its body ends -/

/-- A command whose body stops at the first unwritten request operand faults on it, in the order of R188. -/
theorem requestFaultsInOrder_of_body {i : Instr} {s : State} {body : Except Place State}
    (he : exec i s = commit i s body)
    (h : ∀ what, readRequestOperands s = .error what → body = .error what) : RequestFaultsInOrder i s := by
  have faults : ∀ what, readRequestOperands s = .error what → FaultsOn i i s what :=
    fun what hw => faultsOn_of_body_error he (h what hw)
  refine ⟨fun h0 => ?_, fun h0 h1 => ?_, fun h0 h1 h2 => ?_, fun h0 h1 h2 h3 => ?_⟩
  · exact faults _ (by simp [readRequestOperands, h0])
  · exact faults _ (by simp [readRequestOperands, h0, h1])
  · exact faults _ (by simp [readRequestOperands, h0, h1, h2])
  · exact faults _ (by simp [readRequestOperands, h0, h1, h2, h3])

/-- The count rejection changes no register but STATUS, TXLEN and EXPSIZE (R121). -/
theorem sameRegsBut_rejectCount (s : State) : SameRegsBut [.status, .txlen, .expsize] s (rejectCount s) := by
  intro r hr
  cases r with
  | status | txlen | expsize => simp at hr
  | _ => rfl

/-- An accepted build changes no register but STATUS, TXLEN and EXPSIZE (R120, R124). -/
theorem sameRegsBut_emitRequest (frame : List Byte) (n e : Half) (s : State) :
    SameRegsBut [.status, .txlen, .expsize] s (emitRequest frame n e s) := by
  intro r hr
  cases r with
  | status | txlen | expsize => simp at hr
  | _ => rfl

theorem countRejected_of_body {i : Instr} {s : State} {body : Except Place State} (he : exec i s = commit i s body)
    (h : body = .ok (rejectCount s)) : CountRejected i s :=
  ⟨rejectCount s, exec_of_body_ok he h, rfl, rfl, rfl, rfl, sameRegsBut_rejectCount s, fun b _ => by cases b <;> rfl,
    rfl, rfl, rfl, rfl, rfl⟩

/-- A command whose body emits a frame of as many bytes as TXLEN says has built that request. -/
theorem requestBuilt_of_body {i : Instr} {s : State} {body : Except Place State} {frame : List Byte} {n e : Half}
    (he : exec i s = commit i s body) (h : body = .ok (emitRequest frame n e s)) (hlen : frame.length = n.toNat) :
    RequestBuilt i s frame n.toNat e.toNat := by
  have txb : ∀ a, Memory.read (emitRequest frame n e s).txb a =
      if a < n.toNat then frame[a]? else Memory.read s.txb a :=
    fun a => hlen ▸ Memory.read_writeBytes_zero frame s.txb a
  refine ⟨emitRequest frame n e s, exec_of_body_ok he h, rfl, rfl, rfl, hlen, fun a ha => ?_, fun a ha => ?_, rfl,
    sameRegsBut_emitRequest frame n e s, fun _ => rfl, fun _ => rfl, rfl, rfl, rfl, rfl, rfl⟩
  · rw [txb, if_pos ha]
  · rw [txb, if_neg (Nat.not_lt.mpr ha)]

/-! ### The frames, byte by byte -/

/-- COUNT on the wire: its high byte is 0 (R76, R77). -/
theorem be16_setWidth_byte (b : Byte) : be16 (b.setWidth 16) = [0x00#8, b] := by
  have high : (b.setWidth 16).extractLsb' 8 8 = 0x00#8 := by ext; simp
  have low : (b.setWidth 16).extractLsb' 0 8 = b := by simp [← BitVec.setWidth_eq_extractLsb']
  rw [be16, high, low]

theorem readRequestFrame_eq (o : RequestOperands) :
    readRequestFrame o =
      [o.tid.extractLsb' 8 8, o.tid.extractLsb' 0 8, 0x00#8, 0x00#8, 0x00#8, 0x06#8, o.unit, 0x03#8,
        o.start.extractLsb' 8 8, o.start.extractLsb' 0 8, 0x00#8, o.count] := by
  rw [readRequestFrame, be16_setWidth_byte]
  rfl

theorem writeRequestFrame_eq (o : RequestOperands) (data : List Byte) :
    writeRequestFrame o data =
      [o.tid.extractLsb' 8 8, o.tid.extractLsb' 0 8, 0x00#8, 0x00#8,
        (BitVec.ofNat 16 (7 + 2 * o.count.toNat)).extractLsb' 8 8,
        (BitVec.ofNat 16 (7 + 2 * o.count.toNat)).extractLsb' 0 8, o.unit, 0x10#8,
        o.start.extractLsb' 8 8, o.start.extractLsb' 0 8, 0x00#8, o.count,
        BitVec.ofNat 8 (2 * o.count.toNat)] ++ data := by
  rw [writeRequestFrame, be16_setWidth_byte]
  rfl

/-! ### The ends of the bodies -/

/-- The register operands of a request, as the state holds them. -/
def requestOperands (s : State) : RequestOperands := ⟨s.tidin.value, s.unit.value, s.start.value, s.count.value⟩

theorem readRequestOperands_eq {s : State} (h : RequestOperandsWritten s) :
    readRequestOperands s = .ok (requestOperands s) := by
  obtain ⟨h0, h1, h2, h3⟩ := h
  exact readRequestOperands_of_written h0 h1 h2 h3

/-- A read of bytes from address 0 stops at the lowest unwritten one (R188). -/
theorem readBytes_zero_of_lowest_unwritten {b : Buffer} {s : State} {n k : Nat} (hk : k < n)
    (hnone : Memory.read (bufferOf b s) k = none)
    (hsome : ∀ j, j < k → (Memory.read (bufferOf b s) j).isSome = true) :
    readBytes b 0 n s = .error (.byte b k) := by
  cases h : readBytes b 0 n s with
  | ok data =>
    obtain ⟨hlen, hread⟩ := readBytes_ok h
    have outside : data[k]? = none := by rw [← hread k hk, Nat.zero_add, hnone]
    rw [List.getElem?_eq_none_iff] at outside
    omega
  | error what =>
    obtain ⟨j, -, rfl, hnone', hsome'⟩ := readBytes_error h
    simp only [Nat.zero_add] at hnone' hsome' ⊢
    rcases Nat.lt_trichotomy j k with hlt | rfl | hgt
    · simpa [hnone'] using hsome j hlt
    · rfl
    · simpa [hnone] using hsome' k hgt

/-- A read of written bytes from address 0 gives those bytes. -/
theorem readBytes_zero_of_written {b : Buffer} {s : State} {n : Nat}
    (h : ∀ k, k < n → (Memory.read (bufferOf b s) k).isSome = true) :
    ∃ data, readBytes b 0 n s = .ok data ∧ data.length = n ∧
      ∀ k, k < n → Memory.read (bufferOf b s) k = data[k]? := by
  obtain ⟨data, hread⟩ := readBytes_of_written (a := 0) (by simpa using h)
  exact ⟨data, hread, by simpa using readBytes_ok hread⟩

theorem buildReadBody_of_count_gt {s : State} (hw : RequestOperandsWritten s) (hc : 127 < s.count.value.toNat) :
    buildReadBody s = .ok (rejectCount s) := by
  simpa [readRequestOperands_eq hw, requestOperands, hc, Nat.not_le.mpr hc] using buildReadBody_cases s

/-- The count test comes before the reads of WDB (R121). -/
theorem buildWriteBody_of_count_gt {s : State} (hw : RequestOperandsWritten s) (hc : 127 < s.count.value.toNat) :
    buildWriteBody s = .ok (rejectCount s) := by
  simpa [readRequestOperands_eq hw, requestOperands, hc, Nat.not_le.mpr hc] using buildWriteBody_cases s

theorem buildReadBody_of_count_le {s : State} (hw : RequestOperandsWritten s) (hc : s.count.value.toNat ≤ 127) :
    buildReadBody s =
      .ok (emitRequest (readRequestFrame (requestOperands s)) 12#16
        (BitVec.ofNat 16 (9 + 2 * s.count.value.toNat)) s) := by
  simpa [readRequestOperands_eq hw, requestOperands, hc, Nat.not_lt.mpr hc] using buildReadBody_cases s

/-- With operands written and a count of at most 127, BUILDWR ends as its read of the data ends (R124, R125). -/
theorem buildWriteBody_of_count_le {s : State} (hw : RequestOperandsWritten s) (hc : s.count.value.toNat ≤ 127) :
    buildWriteBody s = readBytes .wdb 0 (2 * s.count.value.toNat) s >>= fun data =>
      .ok (emitRequest (writeRequestFrame (requestOperands s) data)
        (BitVec.ofNat 16 (13 + 2 * s.count.value.toNat)) 12#16 s) := by
  simp [buildWriteBody, readRequestOperands_eq hw, requestOperands, maxCount, Nat.not_lt.mpr hc]

/-! ### The rules -/

/-- Settles O23: either body comes to the count test with its operands read and nothing of WDB read. -/
theorem countAbove127Rejected : Obligations.CountAbove127Rejected := by
  rintro i s (rfl | rfl) hw hc
  · exact countRejected_of_body rfl (buildReadBody_of_count_gt hw hc)
  · exact countRejected_of_body rfl (buildWriteBody_of_count_gt hw hc)

/-- Settles O21: the operand faults come first, the rejection is O23's, and EXPSIZE fits its 16 bits. -/
theorem buildrdRule : Obligations.BuildrdRule := by
  refine ⟨rfl, fun s => ⟨?_, countAbove127Rejected _ s (.inl rfl), fun hw hc => ?_⟩⟩
  · exact requestFaultsInOrder_of_body rfl fun what h => by simpa [h] using buildReadBody_cases s
  · have built := requestBuilt_of_body (i := .buildrd) rfl (buildReadBody_of_count_le hw hc) (by simp)
    have size : (BitVec.ofNat 16 (9 + 2 * s.count.value.toNat)).toNat = 9 + 2 * s.count.value.toNat :=
      Nat.mod_eq_of_lt (by omega)
    rw [readRequestFrame_eq, size] at built
    exact built

/-- Settles O22: after the operand faults and O23's rejection, the command ends as its read of the data ends. -/
theorem buildwrRule : Obligations.BuildwrRule := by
  refine ⟨rfl, fun s => ⟨?_, countAbove127Rejected _ s (.inr rfl), fun k hw hc hk hnone hsome => ?_,
    fun hw hc hdata => ?_⟩⟩
  · exact requestFaultsInOrder_of_body rfl fun what h => by simpa [h] using buildWriteBody_cases s
  · have stop : readBytes .wdb 0 (2 * s.count.value.toNat) s = .error (.byte .wdb k) :=
      readBytes_zero_of_lowest_unwritten hk hnone hsome
    exact faultsOn_of_body_error rfl (by rw [buildWriteBody_of_count_le hw hc, stop, except_error_bind])
  · obtain ⟨data, hread, hlen, hbytes⟩ := readBytes_zero_of_written (b := .wdb) hdata
    have size : (BitVec.ofNat 16 (13 + 2 * s.count.value.toNat)).toNat = 13 + 2 * s.count.value.toNat :=
      Nat.mod_eq_of_lt (by omega)
    have built := requestBuilt_of_body (i := .buildwr) rfl
      (by rw [buildWriteBody_of_count_le hw hc, hread, except_ok_bind]) (by simp [hlen, size])
    rw [writeRequestFrame_eq, size] at built
    exact ⟨data, hbytes, built⟩

end Sys2Proof.Machine
end

section
/-!
PROOFS. Frame validation (42_frame_validate.md R141 to R148, R150): each check of VALIDATE is an equation on its body,
the ends of steps 4 to 6 are listed once with the reason for each, and the rules are read off these. RXB[7] first comes
in at exec_validate_of_received: what stands before it serves a function code met inside VALIDATE too.
-/
namespace Sys2Proof.Machine

/-! ### Received bytes -/

theorem Received.unique {s : State} {a : Nat} {v w : Byte} (hv : Received s a v) (hw : Received s a w) : v = w :=
  Option.some.inj (hv.symm.trans hw)

theorem readByte_of_received {s : State} {a : Nat} {v : Byte} (h : Received s a v) : readByte .rxb a s = .ok v :=
  readByte_of_written h

theorem readHalf_of_received {s : State} {a : Nat} {v0 v1 : Byte} (h0 : Received s a v0)
    (h1 : Received s (a + 1) v1) : readHalf .rxb a s = .ok (v0 ++ v1) :=
  readHalf_of_written h0 h1

/-! ### The STATUS bytes of steps 4 to 6 (R182) -/

@[simp] theorem statusByte_lengthMismatch : statusByte .lengthMismatch = 0x64#8 := rfl
@[simp] theorem statusByte_sizeMismatch : statusByte .sizeMismatch = 0x65#8 := rfl
@[simp] theorem statusByte_transactionMismatch : statusByte .transactionMismatch = 0x66#8 := rfl

/-! ### How VALIDATE ends, from the state it ends in -/

/-- The common form of failValidate, reportException and acceptFrame: finish after the three result registers (R150). -/
theorem validateEndsWith_of_exec {i : Instr} {s : State} {c : StatusCode} {excode : Byte} {off len : Half}
    (h : exec i s = .next (finish c { s with excode := excode, payoff := off, paylen := len })) :
    ValidateEndsWith i s (statusByte c) excode off len (desyncAfter c s.desync) := by
  refine ⟨_, h, rfl, rfl, rfl, rfl, rfl, rfl, fun r hr => ?_, fun b _ => by cases b <;> rfl, rfl, rfl, rfl, rfl, rfl⟩
  cases r with
  | status | excode | payoff | paylen | desync => simp at hr
  | _ => rfl

/-! ### Arguments and step 1 -/

/-- R141: an EFC that is no supported function code, or more bytes than RXB holds. -/
theorem validateBody_of_badArgument {byte7 : Except Place Byte} {s : State} (he : s.efc.written = true)
    (hr : s.rxlen.written = true)
    (h : (s.efc.value ≠ 0x03#8 ∧ s.efc.value ≠ 0x10#8) ∨ s.params.rxCap < s.rxlen.value.toNat) :
    validateBody byte7 s = .ok (failValidate .badArgument s) := by
  simp only [validateBody, readReg_of_written he, readReg_of_written hr, except_ok_bind, except_pure]
  split
  · rfl
  · next hefc => rw [if_pos (h.resolve_left hefc)]

/-- R142: fewer than nine bytes. -/
theorem validateBody_of_truncated {byte7 : Except Place Byte} {s : State} (hv : ValidArguments s)
    (hn : s.rxlen.value.toNat < 9) : validateBody byte7 s = .ok (failValidate .frameTruncated s) := by
  obtain ⟨he, hr, hefc, hcap⟩ := hv
  have known : ¬ (s.efc.value ≠ functionCodeRead ∧ s.efc.value ≠ functionCodeWrite) := by tauto
  simp [validateBody, he, hr, known, Nat.not_lt.mpr hcap, hn]

/-- With valid arguments and nine bytes or more, VALIDATE goes on as the dispatch on the function code does. -/
theorem validateBody_of_functionCode {s : State} {fc : Byte} (hv : ValidArguments s)
    (hn : 9 ≤ s.rxlen.value.toNat) :
    validateBody (.ok fc) s = dispatchFunctionCode s.efc.value s.rxlen.value fc s := by
  obtain ⟨he, hr, hefc, hcap⟩ := hv
  rw [validateBody_of_valid he hr hefc hcap hn, except_ok_bind]

/-! ### Steps 2 and 3 -/

theorem ValidArguments.exceptionFunctionCode_ne {s : State} (hv : ValidArguments s) :
    exceptionFunctionCode s.efc.value ≠ s.efc.value := by
  obtain ⟨-, -, h | h, -⟩ := hv <;> rw [h] <;> decide

/-- R143, the expected function code. -/
theorem dispatchFunctionCode_expected (efc : Byte) (n : Half) (s : State) :
    dispatchFunctionCode efc n efc s = checkLength efc n s := if_pos rfl

/-- R143, the exception function code. -/
theorem dispatchFunctionCode_exception {efc code : Byte} {n : Half} {s : State}
    (hne : exceptionFunctionCode efc ≠ efc) (h8 : Received s 8 code) :
    dispatchFunctionCode efc n (exceptionFunctionCode efc) s = .ok (reportException code s) := by
  rw [dispatchFunctionCode, if_neg hne, if_pos rfl, readByte_of_received h8, except_ok_bind, except_pure]

/-- R144: any other function code. -/
theorem dispatchFunctionCode_unexpected {efc fc : Byte} {n : Half} {s : State} (hne : fc ≠ efc)
    (hne' : fc ≠ exceptionFunctionCode efc) :
    dispatchFunctionCode efc n fc s = .ok (failValidate .unexpectedFunctionCode s) := by
  rw [dispatchFunctionCode, if_neg hne, if_neg hne', except_pure]

/-! ### Steps 4, 5 and 6 -/

/-- The payload slice of the expected function code: [9, 9 + bc) for a read, [8, n) for a write (R148). -/
inductive PayloadSlice (s : State) : Half → Half → Prop where
  | read (bc : Byte) (hefc : s.efc.value = 0x03#8) (h8 : Received s 8 bc) : PayloadSlice s 9#16 (bc.setWidth 16)
  | write (hefc : s.efc.value ≠ 0x03#8) : PayloadSlice s 8#16 (BitVec.ofNat 16 (s.rxlen.value.toNat - 8))

/-- R145, a frame shorter than its length field says. -/
theorem checkLength_of_lt {efc b4 b5 : Byte} {n : Half} {s : State} (h4 : Received s 4 b4) (h5 : Received s 5 b5)
    (h : n.toNat < (b4 ++ b5).toNat + 6) : checkLength efc n s = .ok (failValidate .lengthMismatch s) := by
  rw [checkLength, readHalf_of_received h4 h5, except_ok_bind, if_pos h, except_pure]

/-- R145, a frame that passes step 4. -/
theorem checkLength_of_le {efc b4 b5 : Byte} {n : Half} {s : State} (h4 : Received s 4 b4) (h5 : Received s 5 b5)
    (h : (b4 ++ b5).toNat + 6 ≤ n.toNat) :
    checkLength efc n s =
      if efc = functionCodeRead then checkReadSize n s else checkTransaction 8#16 (n - 8#16) s := by
  rw [checkLength, readHalf_of_received h4 h5, except_ok_bind, if_neg (Nat.not_lt.mpr h)]

/-- R146, a read response of another size than its byte count says. -/
theorem checkReadSize_of_ne {bc : Byte} {n : Half} {s : State} (h8 : Received s 8 bc) (h : n.toNat ≠ 9 + bc.toNat) :
    checkReadSize n s = .ok (failValidate .sizeMismatch s) := by
  rw [checkReadSize, readByte_of_received h8, except_ok_bind, if_neg h, except_pure]

/-- R146, a read response that passes step 5. -/
theorem checkReadSize_of_eq {bc : Byte} {n : Half} {s : State} (h8 : Received s 8 bc) (h : n.toNat = 9 + bc.toNat) :
    checkReadSize n s = checkTransaction 9#16 (bc.setWidth 16) s := by
  rw [checkReadSize, readByte_of_received h8, except_ok_bind, if_pos h]

/-- R147, the transaction id of another request. -/
theorem checkTransaction_of_ne {off len : Half} {b0 b1 : Byte} {s : State} (hchk : tidchk s.ctrl = true)
    (htid : s.tidin.written = true) (h0 : Received s 0 b0) (h1 : Received s 1 b1) (h : b0 ++ b1 ≠ s.tidin.value) :
    checkTransaction off len s = .ok (failValidate .transactionMismatch s) := by
  rw [checkTransaction, if_pos hchk, readReg_of_written htid, readHalf_of_received h0 h1, except_ok_bind,
    except_ok_bind, if_neg h, except_pure]

/-- R147, a frame that passes step 6. -/
theorem checkTransaction_of_matches {off len : Half} {s : State} (h : TransactionMatches s) :
    checkTransaction off len s = .ok (acceptFrame off len s) := by
  rcases h with hchk | ⟨htid, b0, b1, h0, h1, hid⟩
  · simp [checkTransaction, hchk]
  · simp [checkTransaction, htid, readHalf_of_received h0 h1, hid]

/-- The length of a write's slice, computed on 16 bits, is n - 8 when there are eight bytes (R148). -/
theorem sub_eight_eq_ofNat {n : Half} (h : 8 ≤ n.toNat) : n - 8#16 = BitVec.ofNat 16 (n.toNat - 8) := by
  bv_omega

/-- A frame that passes steps 4 and 5 comes to step 6 with the slice of its kind. -/
theorem checkLength_of_passes {s : State} (hn : 9 ≤ s.rxlen.value.toNat) (hp : PassesLengthAndSize s) :
    ∃ off len, PayloadSlice s off len ∧
      checkLength s.efc.value s.rxlen.value s = checkTransaction off len s := by
  obtain ⟨⟨b4, b5, h4, h5, hlen⟩, hsize⟩ := hp
  rw [checkLength_of_le h4 h5 hlen]
  by_cases hefc : s.efc.value = 0x03#8
  · obtain ⟨bc, h8, hbc⟩ := hsize hefc
    exact ⟨_, _, .read bc hefc h8, by rw [if_pos hefc, checkReadSize_of_eq h8 hbc]⟩
  · exact ⟨_, _, .write hefc, by rw [if_neg hefc, sub_eight_eq_ofNat (by omega)]⟩

/-- Where steps 4 to 6 can end with a status, and why (R145 to R148). -/
inductive ResponseEnd (s : State) : State → Prop where
  | lengthMismatch (b4 b5 : Byte) (h4 : Received s 4 b4) (h5 : Received s 5 b5)
      (h : s.rxlen.value.toNat < (b4 ++ b5).toNat + 6) : ResponseEnd s (failValidate .lengthMismatch s)
  | sizeMismatch (bc : Byte) (hefc : s.efc.value = 0x03#8) (h8 : Received s 8 bc)
      (h : s.rxlen.value.toNat ≠ 9 + bc.toNat) : ResponseEnd s (failValidate .sizeMismatch s)
  | transactionMismatch (b0 b1 : Byte) (hchk : tidchk s.ctrl = true) (h0 : Received s 0 b0) (h1 : Received s 1 b1)
      (h : b0 ++ b1 ≠ s.tidin.value) : ResponseEnd s (failValidate .transactionMismatch s)
  | accepted (off len : Half) (hslice : PayloadSlice s off len) : ResponseEnd s (acceptFrame off len s)

theorem responseEnd_of_checkTransaction {off len : Half} {s t : State} (hslice : PayloadSlice s off len)
    (h : checkTransaction off len s = .ok t) : ResponseEnd s t := by
  cases hchk : tidchk s.ctrl with
  | false =>
    rw [checkTransaction_of_matches (.inl hchk)] at h
    cases h
    exact .accepted off len hslice
  | true =>
    rcases readReg_cases .tidin s.tidin with ⟨htid, -⟩ | ⟨-, etid⟩
    · rcases readHalf_cases .rxb 0 s with ⟨b0, b1, h0, h1, -⟩ | ⟨-, e⟩ | ⟨-, -, e⟩
      · by_cases hid : b0 ++ b1 = s.tidin.value
        · rw [checkTransaction_of_matches (.inr ⟨htid, b0, b1, h0, h1, hid⟩)] at h
          cases h
          exact .accepted off len hslice
        · rw [checkTransaction_of_ne hchk htid h0 h1 hid] at h
          cases h
          exact .transactionMismatch b0 b1 hchk h0 h1 hid
      · simp [checkTransaction, hchk, htid, e] at h
      · simp [checkTransaction, hchk, htid, e] at h
    · simp [checkTransaction, hchk, etid] at h

theorem responseEnd_of_checkReadSize {s t : State} (hefc : s.efc.value = 0x03#8)
    (h : checkReadSize s.rxlen.value s = .ok t) : ResponseEnd s t := by
  rcases readByte_cases .rxb 8 s with ⟨bc, h8, -⟩ | ⟨-, e⟩
  · by_cases hn : s.rxlen.value.toNat = 9 + bc.toNat
    · rw [checkReadSize_of_eq h8 hn] at h
      exact responseEnd_of_checkTransaction (.read bc hefc h8) h
    · rw [checkReadSize_of_ne h8 hn] at h
      cases h
      exact .sizeMismatch bc hefc h8 hn
  · simp [checkReadSize, e] at h

theorem responseEnd_of_checkLength {s t : State} (hn : 9 ≤ s.rxlen.value.toNat)
    (h : checkLength s.efc.value s.rxlen.value s = .ok t) : ResponseEnd s t := by
  rcases readHalf_cases .rxb 4 s with ⟨b4, b5, h4, h5, -⟩ | ⟨-, e⟩ | ⟨-, -, e⟩
  · rcases Nat.lt_or_ge s.rxlen.value.toNat ((b4 ++ b5).toNat + 6) with hlt | hle
    · rw [checkLength_of_lt h4 h5 hlt] at h
      cases h
      exact .lengthMismatch b4 b5 h4 h5 hlt
    · rw [checkLength_of_le h4 h5 hle] at h
      by_cases hefc : s.efc.value = 0x03#8
      · rw [if_pos hefc] at h
        exact responseEnd_of_checkReadSize hefc h
      · rw [if_neg hefc, sub_eight_eq_ofNat (by omega)] at h
        exact responseEnd_of_checkTransaction (.write hefc) h
  · simp [checkLength, e] at h
  · simp [checkLength, e] at h

/-! ### Where VALIDATE can end -/

/-- What VALIDATE ends with, whichever step it ends in: fail(C), a device exception, or success with the slice of its
kind (R150). -/
inductive StatusEnd (s : State) : State → Prop where
  | failed (c : StatusCode) (hok : statusByte c ≠ 0x00#8) (hexc : statusByte c ≠ 0x27#8) :
      StatusEnd s (failValidate c s)
  | exception (code : Byte) (h8 : Received s 8 code) : StatusEnd s (reportException code s)
  | accepted (off len : Half) (hslice : PayloadSlice s off len) : StatusEnd s (acceptFrame off len s)

theorem ResponseEnd.statusEnd {s t : State} (h : ResponseEnd s t) : StatusEnd s t := by
  cases h with
  | lengthMismatch | sizeMismatch | transactionMismatch => exact .failed _ (by decide) (by decide)
  | accepted off len hslice => exact .accepted off len hslice

theorem statusEnd_of_dispatchFunctionCode {fc : Byte} {s t : State} (hn : 9 ≤ s.rxlen.value.toNat)
    (h : dispatchFunctionCode s.efc.value s.rxlen.value fc s = .ok t) : StatusEnd s t := by
  by_cases hefc : fc = s.efc.value
  · subst hefc
    rw [dispatchFunctionCode_expected] at h
    exact (responseEnd_of_checkLength hn h).statusEnd
  · by_cases hexc : fc = exceptionFunctionCode s.efc.value
    · subst hexc
      rcases readByte_cases .rxb 8 s with ⟨code, h8, -⟩ | ⟨-, e⟩
      · rw [dispatchFunctionCode_exception hefc h8] at h
        cases h
        exact .exception code h8
      · simp [dispatchFunctionCode, hefc, e] at h
    · rw [dispatchFunctionCode_unexpected hefc hexc] at h
      cases h
      exact .failed _ (by decide) (by decide)

theorem statusEnd_of_validateBody {byte7 : Except Place Byte} {s t : State} (h : validateBody byte7 s = .ok t) :
    StatusEnd s t := by
  obtain ⟨he, hr, -⟩ := validateBody_end h
  by_cases bad : (s.efc.value ≠ 0x03#8 ∧ s.efc.value ≠ 0x10#8) ∨ s.params.rxCap < s.rxlen.value.toNat
  · rw [validateBody_of_badArgument he hr bad] at h
    cases h
    exact .failed _ (by decide) (by decide)
  · have hefc : s.efc.value = 0x03#8 ∨ s.efc.value = 0x10#8 := by tauto
    have hcap : s.rxlen.value.toNat ≤ s.params.rxCap := Nat.not_lt.mp fun hgt => bad (.inr hgt)
    rcases Nat.lt_or_ge s.rxlen.value.toNat 9 with hn | hn
    · rw [validateBody_of_truncated ⟨he, hr, hefc, hcap⟩ hn] at h
      cases h
      exact .failed _ (by decide) (by decide)
    · rw [validateBody_of_valid he hr hefc hcap hn] at h
      cases byte7 with
      | ok fc => exact statusEnd_of_dispatchFunctionCode hn h
      | error what => simp at h

/-! ### From the body to VALIDATE -/

/-- VALIDATE takes its function code from RXB[7] (R140). -/
theorem exec_validate_of_received {s : State} {fc : Byte} (h7 : Received s 7 fc) :
    exec .validate s = commit .validate s (validateBody (.ok fc) s) := by
  rw [← readByte_of_received h7]
  rfl

/-- With the expected function code, VALIDATE runs steps 4 to 6. -/
theorem exec_validate_of_expected {s : State} (hv : ValidArguments s) (hn : 9 ≤ s.rxlen.value.toNat)
    (h7 : Received s 7 s.efc.value) :
    exec .validate s = commit .validate s (checkLength s.efc.value s.rxlen.value s) := by
  rw [exec_validate_of_received h7, validateBody_of_functionCode hv hn, dispatchFunctionCode_expected]

/-- A frame that passes steps 1 to 5 comes to step 6 with the slice of its kind. -/
theorem exec_validate_of_passes {s : State} (hp : PassesSteps1To5 s) :
    ∃ off len, PayloadSlice s off len ∧ exec .validate s = commit .validate s (checkTransaction off len s) := by
  obtain ⟨hv, hn, h7, hsize⟩ := hp
  obtain ⟨off, len, hslice, hcheck⟩ := checkLength_of_passes hn hsize
  exact ⟨off, len, hslice, by rw [exec_validate_of_expected hv hn h7, hcheck]⟩

/-- What holds of every end of a body holds of the command's next state, unless the command faults. -/
theorem exec_of_body_ends {i : Instr} {s : State} {body : Except Place State} {P : State → Prop}
    (he : exec i s = commit i s body) (h : ∀ t, body = .ok t → P t) :
    ∃ t, exec i s = .next t ∧ (t.faulted = none → P t) := by
  rcases commit_cases i s body with ⟨t, hbody, hc⟩ | ⟨what, -, hc⟩
  · exact ⟨t, he.trans hc, fun _ => h t hbody⟩
  · exact ⟨_, he.trans hc, fun hf => by simp at hf⟩

theorem succeedsWithSlice_of_exec {i : Instr} {s : State} {off len : Half} (hslice : PayloadSlice s off len)
    (h : exec i s = .next (acceptFrame off len s)) : SucceedsWithSlice i s := by
  have ends : ValidateEndsWith i s 0x00#8 0x00#8 off len s.desync := validateEndsWith_of_exec (c := .ok) h
  cases hslice with
  | read bc hefc h8 => exact ⟨fun _ bc' h8' => h8.unique h8' ▸ ends, fun hefc' => by simp [hefc] at hefc'⟩
  | write hefc => exact ⟨fun hefc' => absurd hefc' hefc, fun _ => ends⟩

/-! ### The rules -/

/-- Settles O26: the argument check needs nothing of RXB, and BAD_ARGUMENT is not fatal. -/
theorem validateArgumentCheck : Obligations.ValidateArgumentCheck := fun _ he hr h =>
  validateEndsWith_of_exec (c := .badArgument) (exec_of_body_ok rfl (validateBody_of_badArgument he hr h))

/-- Settles O27: step 1 needs nothing of RXB. -/
theorem validateTruncation : Obligations.ValidateTruncation := fun _ hv hn =>
  validateEndsWith_of_exec (c := .frameTruncated) (exec_of_body_ok rfl (validateBody_of_truncated hv hn))

/-- Settles O28: an exception ends at the dispatch, and steps 4 to 6 end with neither of the two codes. -/
theorem validateDeviceException : Obligations.ValidateDeviceException := by
  refine fun s hv hn => ⟨fun code h7 h8 => ?_, fun h7 _ => ?_⟩
  · have body : validateBody (.ok (exceptionFunctionCode s.efc.value)) s = .ok (reportException code s) := by
      rw [validateBody_of_functionCode hv hn, dispatchFunctionCode_exception hv.exceptionFunctionCode_ne h8]
    exact validateEndsWith_of_exec (c := .deviceException) (exec_of_body_ok (exec_validate_of_received h7) body)
  · refine exec_of_body_ends (exec_validate_of_expected hv hn h7) fun t ht => ?_
    cases responseEnd_of_checkLength hn ht <;> simp

/-- Settles O29: the dispatch ends with UNEXPECTED_FUNCTION_CODE. -/
theorem validateUnexpectedFunctionCode : Obligations.ValidateUnexpectedFunctionCode := by
  intro s fc hv hn h7 hne hne'
  have body : validateBody (.ok fc) s = .ok (failValidate .unexpectedFunctionCode s) := by
    rw [validateBody_of_functionCode hv hn, dispatchFunctionCode_unexpected hne hne']
  exact validateEndsWith_of_exec (c := .unexpectedFunctionCode) (exec_of_body_ok (exec_validate_of_received h7) body)

/-- Settles O30: LENGTH_MISMATCH is an end of step 4 alone, and only of a frame shorter than its length says. -/
theorem validateLength : Obligations.ValidateLength := by
  intro s b4 b5 hv hn h7 h4 h5
  have he := exec_validate_of_expected hv hn h7
  refine ⟨fun hlt => ?_, fun hle _ => exec_of_body_ends he fun t ht => ?_⟩
  · exact validateEndsWith_of_exec (c := .lengthMismatch) (exec_of_body_ok he (checkLength_of_lt h4 h5 hlt))
  · cases responseEnd_of_checkLength hn ht with
    | lengthMismatch b4' b5' h4' h5' hlt =>
      rw [h4'.unique h4, h5'.unique h5] at hlt
      omega
    | sizeMismatch | transactionMismatch | accepted => simp

/-- Settles O31: SIZE_MISMATCH is an end of step 5 alone, and only of a read response of another size. -/
theorem validateReadSize : Obligations.ValidateReadSize := by
  intro s b4 b5 bc hv hn h7 h4 h5 hle h8
  have he := exec_validate_of_expected hv hn h7
  refine ⟨fun hefc hne => ?_, fun hsize _ => exec_of_body_ends he fun t ht => ?_⟩
  · have body : checkLength s.efc.value s.rxlen.value s = .ok (failValidate .sizeMismatch s) := by
      rw [checkLength_of_le h4 h5 hle, if_pos hefc, checkReadSize_of_ne h8 hne]
    exact validateEndsWith_of_exec (c := .sizeMismatch) (exec_of_body_ok he body)
  · cases responseEnd_of_checkLength hn ht with
    | sizeMismatch bc' hefc h8' hne =>
      rw [h8'.unique h8] at hne
      simp [hefc, hne] at hsize
    | lengthMismatch | transactionMismatch | accepted => simp

/-- Settles O33: past step 5 the command ends as step 6 does, with the slice of its kind. -/
theorem validateSuccess : Obligations.ValidateSuccess := by
  intro s hp hm
  obtain ⟨off, len, hslice, he⟩ := exec_validate_of_passes hp
  exact succeedsWithSlice_of_exec hslice (exec_of_body_ok he (checkTransaction_of_matches hm))

/-- Settles O32: with TIDCHK = 0 step 6 passes, and success is O33's. -/
theorem validateTransactionId : Obligations.ValidateTransactionId := by
  refine fun s hp => ⟨fun b0 b1 hchk htid h0 h1 hne => ?_, fun hchk => validateSuccess s hp (.inl hchk)⟩
  obtain ⟨off, len, -, he⟩ := exec_validate_of_passes hp
  exact validateEndsWith_of_exec (c := .transactionMismatch)
    (exec_of_body_ok he (checkTransaction_of_ne hchk htid h0 h1 hne))

/-- Settles O34: a fault changes none of the three registers, and each end with a status falls under one clause. -/
theorem validateResultRegisters : Obligations.ValidateResultRegisters := by
  intro s t hs he
  rcases commit_cases .validate s (validateBody (readByte .rxb 7 s) s) with ⟨u, hbody, hc⟩ | ⟨what, -, hc⟩
  · obtain rfl : u = t := by simpa using hc.symm.trans he
    cases statusEnd_of_validateBody hbody with
    | failed c hok hexc => simp [hs, hok, hexc]
    | exception code h8 => simp [hs, h8]
    | accepted off len hslice =>
      cases hslice with
      | read bc hefc h8 =>
        have size : (bc.setWidth 16 : Half).toNat = bc.toNat := BitVec.toNat_setWidth_of_le (by decide)
        simpa [hs, hefc, size] using ⟨bc, h8, rfl⟩
      | write hefc =>
        have size : (BitVec.ofNat 16 (s.rxlen.value.toNat - 8)).toNat = s.rxlen.value.toNat - 8 :=
          Nat.mod_eq_of_lt (by omega)
        simpa [hs, hefc] using fun _ => size
  · obtain rfl : raiseUnwritten .validate what s = t := by simpa using hc.symm.trans he
    simp

end Sys2Proof.Machine
end

section
/-!
PROOFS. TIDNEXT (43_transaction_id.md R170): every run of it ends in nextTransactionId, whose frame is stated here.
-/
namespace Sys2Proof.Machine

/-- TIDNEXT reads no operand that could be unwritten, so it always ends with a status (R170). -/
theorem exec_tidnext (s : State) : exec .tidnext s = .next (nextTransactionId s) := rfl

theorem sameRegsBut_nextTransactionId (s : State) :
    SameRegsBut [.tidin, .tidctr, .status] s (nextTransactionId s) := by
  intro r hr
  cases r with
  | tidin | tidctr | status => simp at hr
  | _ => rfl

theorem sameBuffers_nextTransactionId (s : State) : SameBuffers s (nextTransactionId s) :=
  fun b _ => by cases b <;> rfl

theorem sameSurroundings_nextTransactionId (s : State) : SameSurroundings s (nextTransactionId s) :=
  ⟨rfl, rfl, rfl, rfl, rfl⟩

/-- The counter is 16 bits wide, so its advance wraps silently from 0xFFFF to 0 (R170). -/
theorem nextTransactionId_tidctr_toNat (s : State) :
    (nextTransactionId s).tidctr.toNat = (s.tidctr.toNat + 1) % 2 ^ 16 := by
  rw [nextTransactionId_tidctr]
  exact BitVec.toNat_add s.tidctr 1#16

/-- Settles O42: TIDNEXT ends in nextTransactionId from every state. -/
theorem tidnextRule : Obligations.TidnextRule :=
  ⟨rfl, fun s => ⟨nextTransactionId s, exec_tidnext s, nextTransactionId_tidin s, nextTransactionId_tidctr_toNat s,
    nextTransactionId_status s, nextTransactionId_endc s, sameRegsBut_nextTransactionId s,
    sameBuffers_nextTransactionId s, sameSurroundings_nextTransactionId s⟩⟩

end Sys2Proof.Machine
end

section
/-!
PROOFS. The STATUS byte and its fields (10_state.md R33, 60_exceptions.md R182), and BAD_COMMAND, the reserved opcodes
(60_exceptions.md R190).
-/
namespace Sys2Proof.Machine

/-! ### The fields of the STATUS byte of a code (R182) -/

@[simp] theorem statusCodeField_statusByte (c : StatusCode) : statusCodeField (statusByte c) = codeOf c :=
  BitVec.extractLsb'_append_eq_right

@[simp] theorem statusTierField_statusByte (c : StatusCode) : statusTierField (statusByte c) = tierOf c := by
  rw [statusTierField, statusByte, BitVec.extractLsb'_append_eq_of_le (by decide)]
  exact BitVec.extractLsb'_append_eq_right

@[simp] theorem statusFatalField_statusByte (c : StatusCode) : statusFatalField (statusByte c) = fatalOf c := by
  simp only [statusFatalField, statusByte, BitVec.getLsbD_append, BitVec.getLsbD_ofBool]
  simp

/-- Bit 7 is the leading 0 of R182's layout. -/
theorem getLsbD_seven_statusByte (c : StatusCode) : (statusByte c).getLsbD 7 = false := by
  simp only [statusByte, BitVec.getLsbD_append, BitVec.getLsbD_zero]
  simp

/-- Settles O46: the bytes of R182's table are values of statusByte, and its fields are read back off the
concatenation, whatever the code. -/
theorem statusBytes : Obligations.StatusBytes :=
  ⟨rfl, rfl, rfl, rfl, rfl, rfl, rfl, rfl, rfl, rfl, rfl, fun c => ⟨statusCodeField_statusByte c,
    statusTierField_statusByte c, statusFatalField_statusByte c, getLsbD_seven_statusByte c⟩⟩

/-! ### A code that is not fatal (R40, R183) -/

theorem desyncAfter_of_not_fatal {c : StatusCode} (h : fatalOf c = false) (desync : Byte) :
    desyncAfter c desync = desync :=
  if_neg (by simp [h])

/-- A code that is not fatal leaves LATCH as it was, so finish writes STATUS alone. -/
theorem finish_of_not_fatal {c : StatusCode} (h : fatalOf c = false) (s : State) :
    finish c s = { s with status := statusByte c } := by
  rw [finish, desyncAfter_of_not_fatal h]

/-! ### BAD_COMMAND (R190) -/

theorem exec_badCommand (op : Byte) (s : State) : exec (.badCommand op) s = .next { s with status := 0x39#8 } :=
  congrArg Host.Outcome.next (finish_of_not_fatal (c := .badCommand) rfl s)

theorem runCommand_of_reserved {op : Byte} (h : reservedOpcode op = true) (s : State) :
    runCommand op s = exec (.badCommand op) s := by
  rw [runCommand_eq, (reservedOpcode_iff_decodeCommand op).mp h]

/-- Settles O45: a reserved opcode runs as BAD_COMMAND, whose code is not fatal, so finish writes STATUS alone. -/
theorem badCommandWritesOnlyStatus : Obligations.BadCommandWritesOnlyStatus :=
  fun op s h => ⟨(runCommand_of_reserved h s).trans (exec_badCommand op s), exec_badCommand op s⟩

end Sys2Proof.Machine
end

section
/-!
PROOFS. Decoding and encoding (30_encoding.md R70 to R73, R84): in each layer an instruction is well-formed exactly if
it is what its own byte decodes to, and what a byte decodes to keeps the byte.
-/
namespace Sys2Proof

/-! ### The function-code map -/

/-- A byte that R84 does not name has no row in the map. -/
theorem decodeFunctionCode_of_not_named {b : Byte} (h : namedFunctionCode b = false) :
    decodeFunctionCode b = .fcOther b := by
  simp only [namedFunctionCode, Bool.or_eq_false_iff] at h
  obtain ⟨⟨⟨h03, h10⟩, h83⟩, h90⟩ := h
  simp [decodeFunctionCode, functionCodeMap, List.lookup, h03, h10, h83, h90]

theorem namedFunctionCode_cases {b : Byte} (h : namedFunctionCode b = true) :
    b = 0x03#8 ∨ b = 0x10#8 ∨ b = 0x83#8 ∨ b = 0x90#8 := by
  simpa [namedFunctionCode, or_assoc] using h

/-! ### One byte and its instruction -/

/-- The byte of a well-formed instruction decodes to it in its layer (R71, R72, R84). -/
theorem decodeByte_encodeByte {i : Instr} (h : i.wf = true) : decodeByte (layerOf i) (encodeByte i) = i := by
  cases i with
  | badCommand opcode => exact (reservedOpcode_iff_decodeCommand opcode).mp h
  | fcOther code =>
    have other : namedFunctionCode code = false := by simpa [Instr.wf] using h
    exact decodeFunctionCode_of_not_named other
  | _ => rfl

/-- Instruction i is a well-formed one of layer l with byte b. -/
def IsInstrOf (l : Layer) (b : Byte) (i : Instr) : Prop := i.wf = true ∧ layerOf i = l ∧ encodeByte i = b

theorem isInstrOf_decodeCommand (b : Byte) : IsInstrOf .command b (decodeCommand b) := by
  by_cases h : b ∈ assignedOpcodes
  · simp only [assignedOpcodes, commandMap, List.map_cons, List.map_nil, List.mem_cons, List.not_mem_nil, or_false] at h
    rcases h with rfl | rfl | rfl | rfl | rfl | rfl | rfl | rfl | rfl | rfl <;> exact ⟨rfl, rfl, rfl⟩
  · rw [(decodeCommand_eq_badCommand_iff b).mpr h]
    exact ⟨(reservedOpcode_iff_notMem_assignedOpcodes b).mpr h, rfl, rfl⟩

theorem isInstrOf_decodeFunctionCode (b : Byte) : IsInstrOf .wire b (decodeFunctionCode b) := by
  cases h : namedFunctionCode b with
  | true => rcases namedFunctionCode_cases h with rfl | rfl | rfl | rfl <;> exact ⟨rfl, rfl, rfl⟩
  | false =>
    rw [decodeFunctionCode_of_not_named h]
    exact ⟨by simp [Instr.wf, h], rfl, rfl⟩

/-- Every byte of a layer decodes to an instruction of that layer whose byte it is. -/
theorem isInstrOf_decodeByte (l : Layer) (b : Byte) : IsInstrOf l b (decodeByte l b) := by
  cases l with
  | command => exact isInstrOf_decodeCommand b
  | wire => exact isInstrOf_decodeFunctionCode b

/-! ### The rules -/

/-- Settles O1: the decoder reads one byte, so the bytes after it stay unread, and that byte decodes back. -/
theorem decodeEncodeRoundTrip : Obligations.DecodeEncodeRoundTrip := by
  intro i rest h
  have one : decode (layerOf i) (encode i ++ rest) = .ok (decodeByte (layerOf i) (encodeByte i), rest) := rfl
  rw [one, decodeByte_encodeByte h]

/-- Settles O2: the instruction is the one the byte decodes to. -/
theorem encodeDecodeRoundTrip : Obligations.EncodeDecodeRoundTrip := by
  intro l b rest
  obtain ⟨hwf, hlayer, hbyte⟩ := isInstrOf_decodeByte l b
  exact ⟨decodeByte l b, rfl, hwf, hlayer, by rw [encode, hbyte]⟩

/-- Settles O3: each word is a row of its map, or none of the map's keys. -/
theorem specWordsDecode : Obligations.SpecWordsDecode :=
  ⟨rfl, rfl, rfl, rfl, rfl, rfl, rfl, rfl, rfl, rfl⟩

end Sys2Proof
end

section
/-!
PROOFS. Byte order (20_memory.md R54, R55), the reversing mechanism (40_wire_codec.md R102 to R104), and the laws of the
codec commands (40_wire_codec.md section 4).
-/
namespace Sys2Proof.Machine

/-! ### Splitting and joining bytes -/

@[simp] theorem be16_joinBE16 (b0 b1 : Byte) : be16 (joinBE16 b0 b1) = [b0, b1] := by
  have high : (b0 ++ b1).extractLsb' 8 8 = b0 := BitVec.extractLsb'_append_eq_left
  have low : (b0 ++ b1).extractLsb' 0 8 = b1 := BitVec.extractLsb'_append_eq_right
  rw [be16, joinBE16, high, low]

@[simp] theorem be32_joinBE32 (b0 b1 b2 b3 : Byte) : be32 (joinBE32 b0 b1 b2 b3) = [b0, b1, b2, b3] := by
  have first : (b0 ++ b1 ++ b2 ++ b3).extractLsb' 24 8 = b0 := by
    rw [BitVec.extractLsb'_append_eq_of_le (by decide), BitVec.extractLsb'_append_eq_of_le (by decide)]
    exact BitVec.extractLsb'_append_eq_left
  have second : (b0 ++ b1 ++ b2 ++ b3).extractLsb' 16 8 = b1 := by
    rw [BitVec.extractLsb'_append_eq_of_le (by decide), BitVec.extractLsb'_append_eq_of_le (by decide)]
    exact BitVec.extractLsb'_append_eq_right
  have third : (b0 ++ b1 ++ b2 ++ b3).extractLsb' 8 8 = b2 := by
    rw [BitVec.extractLsb'_append_eq_of_le (by decide)]
    exact BitVec.extractLsb'_append_eq_right
  have fourth : (b0 ++ b1 ++ b2 ++ b3).extractLsb' 0 8 = b3 := BitVec.extractLsb'_append_eq_right
  rw [be32, joinBE32, first, second, third, fourth]

/-- The low half of a word, joined from its two bytes. -/
theorem joinBE16_lowHalf (v : Word) : joinBE16 (v.extractLsb' 8 8) (v.extractLsb' 0 8) = v.extractLsb' 0 16 :=
  BitVec.extractLsb'_append_extractLsb'_eq_extractLsb' (by decide)

theorem joinBE16_bytes (v : Half) : joinBE16 (v.extractLsb' 8 8) (v.extractLsb' 0 8) = v := by
  rw [joinBE16, BitVec.extractLsb'_append_extractLsb'_eq_extractLsb' (by decide)]
  exact BitVec.extractLsb'_eq_self

theorem joinBE32_bytes (v : Word) :
    joinBE32 (v.extractLsb' 24 8) (v.extractLsb' 16 8) (v.extractLsb' 8 8) (v.extractLsb' 0 8) = v := by
  rw [joinBE32, BitVec.extractLsb'_append_extractLsb'_eq_extractLsb' (by decide),
    BitVec.extractLsb'_append_extractLsb'_eq_extractLsb' (by decide),
    BitVec.extractLsb'_append_extractLsb'_eq_extractLsb' (by decide)]
  exact BitVec.extractLsb'_eq_self

/-- A byte of a half of a word is a byte of the word. -/
theorem extractLsb'_half (v : Word) (start i : Nat) (hi : i + 8 ≤ 16) :
    (v.extractLsb' start 16).extractLsb' i 8 = v.extractLsb' (start + i) 8 := by
  ext k hk
  have inside : i + k < 16 := by omega
  simp [inside, Nat.add_assoc]

/-- A u32 on the wire is its upper u16 and then its lower one (R55). -/
theorem be32_eq_append_be16 (v : Word) : be32 v = be16 (v.extractLsb' 16 16) ++ be16 (v.extractLsb' 0 16) := by
  rw [be16_lowHalf, be16, extractLsb'_half v 16 8 (by decide), extractLsb'_half v 16 0 (by decide)]
  rfl

/-! ### A decode after an encode, and an encode after a decode -/

/-- A written register is what a write of its value leaves. -/
theorem OperandReg.of_value {w : Nat} {r : OperandReg w} (h : r.written = true) : OperandReg.of r.value = r := by
  rw [OperandReg.of, ← h]

/-- ENC16 of what DEC16 leaves in VAL gives the two bytes it decoded. -/
theorem exec_enc16_of_decoded {s : State} {b0 b1 : Byte}
    (h : s.val = OperandReg.of ((joinBE16 b0 b1).setWidth 32)) :
    exec .enc16 s = .next (finish .ok (writeLanes [b0, b1] (determineEndian s))) := by
  have written : s.val.written = true := by rw [h]; rfl
  have low : s.val.value.extractLsb' 0 16 = joinBE16 b0 b1 := by
    rw [h, OperandReg.of, BitVec.extractLsb'_setWidth_of_le (by decide)]
    exact BitVec.extractLsb'_eq_self
  rw [exec_enc16_of_written written, ← be16_lowHalf, low, be16_joinBE16]

/-- ENC32 of what DEC32 leaves in VAL gives the four bytes it decoded. -/
theorem exec_enc32_of_decoded {s : State} {b0 b1 b2 b3 : Byte}
    (h : s.val = OperandReg.of (joinBE32 b0 b1 b2 b3)) :
    exec .enc32 s = .next (finish .ok (writeLanes [b0, b1, b2, b3] (determineEndian s))) := by
  have written : s.val.written = true := by rw [h]; rfl
  have value : s.val.value = joinBE32 b0 b1 b2 b3 := by rw [h]; rfl
  rw [exec_enc32_of_written (.inl rfl) written, value, be32_joinBE32]

/-- Both pairs of 32-bit commands give VAL back (R106, R107, R110, R111). -/
theorem decode32_of_encode32 {i j : Instr} {s : State} (hi : i = .enc32 ∨ i = .encf32)
    (hj : j = .dec32 ∨ j = .decf32) (h : s.val.written = true) :
    ∃ t u, exec i s = .next t ∧ exec j t = .next u ∧ u.val = OperandReg.of s.val.value :=
  ⟨_, _, exec_enc32_of_written hi h, exec_dec32_of_written hj rfl rfl rfl rfl,
    congrArg OperandReg.of (joinBE32_bytes s.val.value)⟩

/-! ### Where a codec command can end -/

/-- The six codec commands. -/
def codecCommands : List Instr := [.enc16, .enc32, .encf32, .dec16, .dec32, .decf32]

/-- The registers a codec command may change. -/
def codecRegs : List RegName := [.status, .val, .wb0, .wb1, .wb2, .wb3]

theorem faultingCommand_of_codec {i : Instr} (hi : i ∈ codecCommands) : faultingCommand i = i := by
  have all : ∀ j ∈ codecCommands, faultingCommand j = j := by decide
  exact all i hi

theorem SameRegsBut.mono {changed changed' : List RegName} {s t : State} (h : SameRegsBut changed s t)
    (hsub : changed ⊆ changed') : SameRegsBut changed' s t :=
  fun r hr => h r fun hm => hr (hsub hm)

theorem CodecEnd.mono {changed changed' : List RegName} {s t : State} (h : CodecEnd changed s t)
    (hsub : changed ⊆ changed') : CodecEnd changed' s t := by
  obtain ⟨hstatus, hendc, hregs, hrest⟩ := h
  exact ⟨hstatus, hendc, hregs.mono hsub, hrest⟩

/-- A codec command that ends with a status ends with OK (40_wire_codec.md section 4). -/
theorem ExecEnd.codecEnd {i : Instr} {s t : State} (h : ExecEnd s i t) (hi : i ∈ codecCommands) :
    CodecEnd codecRegs s t := by
  cases h with
  | encoded _ _ wire =>
    have lanes : laneNames ⊆ codecRegs := by simp [laneNames, codecRegs]
    have written := List.Subset.trans (List.take_subset wire.length laneNames) lanes
    exact (codecEnd_encoded wire s).mono (List.append_subset.mpr ⟨written, by simp [codecRegs]⟩)
  | decoded _ _ v => exact (codecEnd_decoded v s).mono (by simp [codecRegs])
  | rejected _ hb | built _ hb =>
    have apart : ∀ j ∈ codecCommands, j ∉ [Instr.buildrd, .buildwr] := by decide
    exact absurd hb (apart i hi)
  | validated _ hv | badArgument _ hv =>
    rw [faultingCommand_of_codec hi] at hv
    simp [hv, codecCommands] at hi
  | tid | bad => simp [codecCommands] at hi

/-! ### The rules -/

/-- Settles O5: splitting and joining are inverse, and the bytes of a half of a word are bytes of the word. -/
theorem bytesAreBigEndian : Obligations.BytesAreBigEndian :=
  ⟨be16_joinBE16, be32_joinBE32, joinBE16_bytes, be32_eq_append_be16⟩

/-- Settles O18: the reversal undoes the host image and the host image the reversal. -/
theorem wireBytesIgnoreHostByteOrder : Obligations.WireBytesIgnoreHostByteOrder := by
  refine fun e => ⟨fun v => ?_, fun v => ?_, fun b0 b1 => ?_, fun b0 b1 b2 b3 => ?_⟩
  · rw [wire16, reverseIfLittle_hostImage, be16]
  · rw [wire32, reverseIfLittle_hostImage, be32]
  · rw [value16, hostImage_reverseIfLittle, halfOfBytes, joinBE16]
  · rw [value32, hostImage_reverseIfLittle, wordOfBytes, joinBE32]

/-- Settles O20: a codec command ends with OK in an encode's or a decode's state, or raises its fault. -/
theorem codecCommandsNeverFail : Obligations.CodecCommandsNeverFail := by
  intro i s hi
  rcases exec_cases i s with ⟨what, -, he⟩ | ⟨t, he, hend⟩
  · rw [faultingCommand_of_codec hi] at he
    exact ⟨_, he, .inr ⟨what, he⟩, fun b _ => by rw [bufferOf_raiseUnwritten],
      fun r _ => regView_raiseUnwritten r i what s⟩
  · obtain ⟨hstatus, -, hregs, hbufs, -⟩ := hend.codecEnd hi
    exact ⟨t, he, .inl hstatus, hbufs, hregs⟩

/-- Settles O17: an encode writes every lane that the decode after it reads, and a decode writes VAL. -/
theorem codecRoundTrip : Obligations.CodecRoundTrip := by
  refine ⟨fun s h => ⟨?_, ?_, ?_⟩, fun s h0 h1 => ⟨?_, fun h2 h3 => ?_⟩⟩
  · exact ⟨_, _, exec_enc16_of_written h, exec_dec16_of_written rfl rfl,
      congrArg (fun v : Half => OperandReg.of (v.setWidth 32)) (joinBE16_lowHalf s.val.value)⟩
  · exact decode32_of_encode32 (.inl rfl) (.inl rfl) h
  · exact decode32_of_encode32 (.inr rfl) (.inr rfl) h
  · exact ⟨_, _, exec_dec16_of_written h0 h1, exec_enc16_of_decoded rfl, OperandReg.of_value h0,
      OperandReg.of_value h1⟩
  · exact ⟨_, _, exec_dec32_of_written (.inl rfl) h0 h1 h2 h3, exec_enc32_of_decoded rfl, OperandReg.of_value h0,
      OperandReg.of_value h1, OperandReg.of_value h2, OperandReg.of_value h3⟩

end Sys2Proof.Machine
end

section
/-!
PROOFS. What an instruction does not look at. The reads of a command decide how it ends, and its end is one of a few
updates of the state; so two states that give its reads the same values end alike, and a part of the state that neither
the reads nor the update touch changes nothing (00_scope.md section 3, 10_state.md section 2, 40_wire_codec.md
section 1, 41_frame_build.md section 3, 42_frame_validate.md section 3).
-/
namespace Sys2Proof.Machine

/-! ### The updates an instruction can end in -/

/-- The parts of WCFE, by the updates their instructions end in. -/
inductive Engine where
  | codec
  | build
  | validate
  | control

/-- How an instruction ends with a status, apart from the state it ends on. -/
inductive Ending : Engine → Type where
  /-- Wire bytes to the lanes (R105 to R107). -/
  | encoded (wire : List Byte) : Ending .codec
  /-- A value to VAL (R108 to R111). -/
  | decoded (v : Word) : Ending .codec
  /-- COUNT above 127 (R121). -/
  | rejected : Ending .build
  /-- A frame in TXB (R120, R124). -/
  | built (frame : List Byte) (txlen expsize : Half) : Ending .build
  /-- A code and the three result registers of VALIDATE (R150). -/
  | validated (c : StatusCode) (excode : Byte) (off len : Half) : Ending .validate
  /-- TIDNEXT (R170). -/
  | tid : Ending .control
  /-- BAD_COMMAND (R190). -/
  | bad : Ending .control

/-- The state that an ending leaves. -/
def Ending.apply {g : Engine} : Ending g → State → State
  | .encoded wire, s => finish .ok (writeLanes wire (determineEndian s))
  | .decoded v, s => finish .ok (writeVal v (determineEndian s))
  | .rejected, s => rejectCount s
  | .built frame txlen expsize, s => emitRequest frame txlen expsize s
  | .validated c excode off len, s => finish c { s with excode := excode, payoff := off, paylen := len }
  | .tid, s => nextTransactionId s
  | .bad, s => finish .badCommand s

/-! ### Ending alike -/

/-- Two bodies, run on s and on s', end in the same update of their states or stop at the same place. -/
def EndAlike (g : Engine) (s s' : State) (x y : Except Place State) : Prop :=
  (∃ e : Ending g, x = .ok (e.apply s) ∧ y = .ok (e.apply s')) ∨ ∃ what, x = .error what ∧ y = .error what

theorem EndAlike.ok {g : Engine} {s s' : State} (e : Ending g) : EndAlike g s s' (.ok (e.apply s)) (.ok (e.apply s')) :=
  .inl ⟨e, rfl, rfl⟩

/-- After one and the same read, bodies that end alike for every value read end alike. -/
theorem EndAlike.bind {g : Engine} {α : Type} {s s' : State} {x y : α → Except Place State} (r : Except Place α)
    (h : ∀ v, EndAlike g s s' (x v) (y v)) : EndAlike g s s' (r >>= x) (r >>= y) := by
  cases r with
  | ok v => exact h v
  | error what => exact .inr ⟨what, rfl, rfl⟩

theorem EndAlike.ite {g : Engine} {p : Prop} [Decidable p] {s s' : State} {x y x' y' : Except Place State}
    (hx : EndAlike g s s' x x') (hy : EndAlike g s s' y y') :
    EndAlike g s s' (if p then x else y) (if p then x' else y') := by
  split
  · exact hx
  · exact hy

/-- Instruction i, run on s and on s', ends in the same update of both or faults on both at the same place. -/
def ExecAlike (g : Engine) (i : Instr) (s s' : State) : Prop :=
  (∃ e : Ending g, exec i s = .next (e.apply s) ∧ exec i s' = .next (e.apply s')) ∨
    ∃ c what, exec i s = .next (raiseUnwritten c what s) ∧ exec i s' = .next (raiseUnwritten c what s')

theorem EndAlike.exec {g : Engine} {i c : Instr} {s s' : State} {x y : Except Place State} (h : EndAlike g s s' x y)
    (hx : exec i s = commit c s x) (hy : exec i s' = commit c s' y) : ExecAlike g i s s' := by
  rcases h with ⟨e, rfl, rfl⟩ | ⟨what, rfl, rfl⟩
  · exact .inl ⟨e, hx, hy⟩
  · exact .inr ⟨c, what, hx, hy⟩

/-! ### The reads of the codec -/

/-- The states agree on VAL and the lanes, which the codec reads (R105 to R111). -/
structure SameCodecReads (s s' : State) : Prop where
  val : s'.val = s.val
  wb0 : s'.wb0 = s.wb0
  wb1 : s'.wb1 = s.wb1
  wb2 : s'.wb2 = s.wb2
  wb3 : s'.wb3 = s.wb3

theorem SameCodecReads.encode16 {s s' : State} (h : SameCodecReads s s') :
    EndAlike .codec s s' (encode16Body s) (encode16Body s') := by
  simp only [encode16Body, readVal, wire16, reverseIfLittle_hostImage, h.val]
  exact .bind _ fun v => .ok (.encoded (be16 (v.extractLsb' 0 16)))

theorem SameCodecReads.encode32 {s s' : State} (h : SameCodecReads s s') :
    EndAlike .codec s s' (encode32Body s) (encode32Body s') := by
  simp only [encode32Body, readVal, wire32, reverseIfLittle_hostImage, h.val]
  exact .bind _ fun v => .ok (.encoded (be32 v))

theorem SameCodecReads.decode16 {s s' : State} (h : SameCodecReads s s') :
    EndAlike .codec s s' (decode16Body s) (decode16Body s') := by
  simp only [decode16Body, readLanes2, value16, hostImage_reverseIfLittle, h.wb0, h.wb1]
  exact .bind _ fun wire => .ok (.decoded ((halfOfBytes wire).setWidth 32))

theorem SameCodecReads.decode32 {s s' : State} (h : SameCodecReads s s') :
    EndAlike .codec s s' (decode32Body s) (decode32Body s') := by
  simp only [decode32Body, readLanes4, value32, hostImage_reverseIfLittle, h.wb0, h.wb1, h.wb2, h.wb3]
  exact .bind _ fun wire => .ok (.decoded (wordOfBytes wire))

/-! ### The reads of the builds -/

/-- The states agree on the request operands and WDB, which the builds read (R120, R124). -/
structure SameRequestReads (s s' : State) : Prop where
  tidin : s'.tidin = s.tidin
  unit : s'.unit = s.unit
  start : s'.start = s.start
  count : s'.count = s.count
  wdb : s'.wdb = s.wdb

theorem SameRequestReads.operands {s s' : State} (h : SameRequestReads s s') :
    readRequestOperands s' = readRequestOperands s := by
  simp only [readRequestOperands, h.tidin, h.unit, h.start, h.count]

/-- Reads of bytes see nothing of the state but the bytes of their buffer. -/
theorem readByte_congr {b : Buffer} {a : Nat} {s s' : State}
    (h : Memory.read (bufferOf b s') a = Memory.read (bufferOf b s) a) : readByte b a s' = readByte b a s := by
  rw [readByte, readByte, h]

theorem readBytes_congr {b : Buffer} {s s' : State} (h : bufferOf b s' = bufferOf b s) (a n : Nat) :
    readBytes b a n s' = readBytes b a n s := by
  induction n generalizing a with
  | zero => rfl
  | succ n ih => rw [readBytes, readBytes, readByte_congr (congrArg (Memory.read · a) h), ih]

theorem SameRequestReads.buildRead {s s' : State} (h : SameRequestReads s s') :
    EndAlike .build s s' (buildReadBody s) (buildReadBody s') := by
  simp only [buildReadBody, h.operands]
  exact .bind _ fun o => .ite (.ok .rejected)
    (.ok (.built (readRequestFrame o) 12#16 (BitVec.ofNat 16 (9 + 2 * o.count.toNat))))

theorem SameRequestReads.buildWrite {s s' : State} (h : SameRequestReads s s') :
    EndAlike .build s s' (buildWriteBody s) (buildWriteBody s') := by
  simp only [buildWriteBody, h.operands, readBytes_congr (show bufferOf .wdb s' = bufferOf .wdb s from h.wdb)]
  exact .bind _ fun o => .ite (.ok .rejected) (.bind _ fun data =>
    .ok (.built (writeRequestFrame o data) (BitVec.ofNat 16 (13 + 2 * o.count.toNat)) 12#16))

/-! ### The reads of VALIDATE -/

/-- The states agree on what VALIDATE reads: EFC, RXLEN, RX_CAP, TIDCHK, TIDIN and six bytes of RXB (R151). -/
structure SameResponseReads (s s' : State) : Prop where
  efc : s'.efc = s.efc
  rxlen : s'.rxlen = s.rxlen
  rxCap : s'.params.rxCap = s.params.rxCap
  ctrl : s'.ctrl = s.ctrl
  tidin : s'.tidin = s.tidin
  rxb : ∀ a, a ∈ [0, 1, 4, 5, 7, 8] → Memory.read s'.rxb a = Memory.read s.rxb a

theorem SameResponseReads.byte {s s' : State} (h : SameResponseReads s s') {a : Nat} (ha : a ∈ [0, 1, 4, 5, 7, 8]) :
    readByte .rxb a s' = readByte .rxb a s :=
  readByte_congr (h.rxb a ha)

theorem SameResponseReads.half {s s' : State} (h : SameResponseReads s s') {a : Nat} (ha : a ∈ [0, 1, 4, 5, 7, 8])
    (ha' : a + 1 ∈ [0, 1, 4, 5, 7, 8]) : readHalf .rxb a s' = readHalf .rxb a s := by
  simp only [readHalf, h.byte ha, h.byte ha']

theorem EndAlike.fail {s s' : State} (c : StatusCode) :
    EndAlike .validate s s' (.ok (failValidate c s)) (.ok (failValidate c s')) :=
  .ok (.validated c 0x00#8 0x0000#16 0x0000#16)

theorem EndAlike.accept {s s' : State} (off len : Half) :
    EndAlike .validate s s' (.ok (acceptFrame off len s)) (.ok (acceptFrame off len s')) :=
  .ok (.validated .ok 0x00#8 off len)

theorem EndAlike.report {s s' : State} (code : Byte) :
    EndAlike .validate s s' (.ok (reportException code s)) (.ok (reportException code s')) :=
  .ok (.validated .deviceException code 0x0000#16 0x0000#16)

theorem SameResponseReads.transaction {s s' : State} (h : SameResponseReads s s') (off len : Half) :
    EndAlike .validate s s' (checkTransaction off len s) (checkTransaction off len s') := by
  simp only [checkTransaction, h.ctrl, h.tidin, h.half (a := 0) (by decide) (by decide)]
  exact .ite (.bind _ fun tid => .bind _ fun id => .ite (.accept off len) (.fail _)) (.accept off len)

theorem SameResponseReads.readSize {s s' : State} (h : SameResponseReads s s') (n : Half) :
    EndAlike .validate s s' (checkReadSize n s) (checkReadSize n s') := by
  simp only [checkReadSize, h.byte (a := 8) (by decide)]
  exact .bind _ fun bc => .ite (h.transaction _ _) (.fail _)

theorem SameResponseReads.length {s s' : State} (h : SameResponseReads s s') (efc : Byte) (n : Half) :
    EndAlike .validate s s' (checkLength efc n s) (checkLength efc n s') := by
  simp only [checkLength, h.half (a := 4) (by decide) (by decide)]
  exact .bind _ fun len => .ite (.fail _) (.ite (h.readSize n) (h.transaction _ _))

theorem SameResponseReads.dispatch {s s' : State} (h : SameResponseReads s s') (efc : Byte) (n : Half) (fc : Byte) :
    EndAlike .validate s s' (dispatchFunctionCode efc n fc s) (dispatchFunctionCode efc n fc s') := by
  simp only [dispatchFunctionCode, h.byte (a := 8) (by decide)]
  exact .ite (h.length efc n) (.ite (.bind _ fun code => .report code) (.fail _))

theorem SameResponseReads.validate {s s' : State} (h : SameResponseReads s s') (byte7 : Except Place Byte) :
    EndAlike .validate s s' (validateBody byte7 s) (validateBody byte7 s') := by
  simp only [validateBody, h.efc, h.rxlen, h.rxCap]
  exact .bind _ fun efc => .bind _ fun n =>
    .ite (.fail _) (.ite (.fail _) (.ite (.fail _) (.bind _ fun fc => h.dispatch efc n fc)))

/-! ### Instructions -/

/-- The states agree on all that any instruction reads; HOST_ENDIAN, ENDC and DESYNC are not among it. -/
structure SameReads (s s' : State) : Prop where
  codec : SameCodecReads s s'
  request : SameRequestReads s s'
  response : SameResponseReads s s'

theorem SameRequestReads.exec {i : Instr} {s s' : State} (h : SameRequestReads s s')
    (hi : i = .buildrd ∨ i = .buildwr) : ExecAlike .build i s s' := by
  rcases hi with rfl | rfl
  · exact h.buildRead.exec rfl rfl
  · exact h.buildWrite.exec rfl rfl

theorem SameResponseReads.exec_validate {s s' : State} (h : SameResponseReads s s') :
    ExecAlike .validate .validate s s' := by
  have h7 : readByte .rxb 7 s' = readByte .rxb 7 s := h.byte (by decide)
  exact (h.validate (readByte .rxb 7 s)).exec rfl (by rw [← h7]; rfl)

/-- Every instruction ends alike on states that agree on what it reads. -/
theorem SameReads.exec {s s' : State} (h : SameReads s s') (i : Instr) : ∃ g, ExecAlike g i s s' := by
  cases i with
  | enc16 => exact ⟨_, h.codec.encode16.exec rfl rfl⟩
  | enc32 => exact ⟨_, h.codec.encode32.exec rfl rfl⟩
  | encf32 => exact ⟨_, h.codec.encode32.exec rfl rfl⟩
  | dec16 => exact ⟨_, h.codec.decode16.exec rfl rfl⟩
  | dec32 => exact ⟨_, h.codec.decode32.exec rfl rfl⟩
  | decf32 => exact ⟨_, h.codec.decode32.exec rfl rfl⟩
  | buildrd => exact ⟨_, h.request.exec (.inl rfl)⟩
  | buildwr => exact ⟨_, h.request.exec (.inr rfl)⟩
  | validate => exact ⟨_, h.response.exec_validate⟩
  | tidnext => exact ⟨.control, .inl ⟨.tid, rfl, rfl⟩⟩
  | badCommand opcode => exact ⟨.control, .inl ⟨.bad, rfl, rfl⟩⟩
  | fcReadMultipleRegisters => exact ⟨_, (h.response.validate _).exec rfl rfl⟩
  | fcWriteMultipleRegisters => exact ⟨_, (h.response.validate _).exec rfl rfl⟩
  | fcExceptionRead => exact ⟨_, (h.response.validate _).exec rfl rfl⟩
  | fcExceptionWrite => exact ⟨_, (h.response.validate _).exec rfl rfl⟩
  | fcOther code => exact ⟨_, (h.response.validate _).exec rfl rfl⟩

/-! ### What the updates do not look at -/

/-- An update writes ENDC and no other part of a state where HOST_ENDIAN or ENDC differ. -/
theorem Ending.apply_withByteOrder {g : Engine} (x : Ending g) (h : Endian) (e : Endc) (s : State) :
    x.apply (withByteOrder h e s) = withByteOrder h (x.apply (withByteOrder h e s)).endc (x.apply s) := by
  cases x <;> rfl

/-- An update writes DESYNC from DESYNC alone. -/
theorem Ending.apply_with_desync {g : Engine} (x : Ending g) (d : Byte) (s : State) :
    x.apply { s with desync := d } = { x.apply s with desync := (x.apply { s with desync := d }).desync } := by
  cases x <;> rfl

theorem sameReads_withByteOrder (h : Endian) (e : Endc) (s : State) : SameReads s (withByteOrder h e s) :=
  ⟨⟨rfl, rfl, rfl, rfl, rfl⟩, ⟨rfl, rfl, rfl, rfl, rfl⟩, ⟨rfl, rfl, rfl, rfl, rfl, fun _ _ => rfl⟩⟩

theorem sameReads_with_desync (d : Byte) (s : State) : SameReads s { s with desync := d } :=
  ⟨⟨rfl, rfl, rfl, rfl, rfl⟩, ⟨rfl, rfl, rfl, rfl, rfl⟩, ⟨rfl, rfl, rfl, rfl, rfl, fun _ _ => rfl⟩⟩

/-- DESYNC does not affect what an instruction does (R40). -/
theorem exec_with_desync (i : Instr) (s : State) (d : Byte) : ∃ t d',
    exec i s = .next t ∧ exec i { s with desync := d } = .next { t with desync := d' } := by
  rcases (sameReads_with_desync d s).exec i with ⟨g, ⟨x, hs, hs'⟩ | ⟨c, what, hs, hs'⟩⟩
  · exact ⟨_, _, hs, by rw [hs', ← x.apply_with_desync]⟩
  · exact ⟨_, d, hs, hs'⟩

/-- The builds write nothing of the receive side (R129). -/
theorem Ending.withReceiveSideOf_apply (x : Ending .build) (s : State) :
    withReceiveSideOf s (x.apply s) = x.apply s := by
  cases x <;> rfl

/-- What the builds write does not depend on the receive side (R129). -/
theorem Ending.apply_withReceiveSideOf (x : Ending .build) (u s : State) :
    x.apply (withReceiveSideOf u s) = withReceiveSideOf u (x.apply s) := by
  cases x <;> rfl

theorem sameRequestReads_withReceiveSideOf (u s : State) : SameRequestReads s (withReceiveSideOf u s) :=
  ⟨rfl, rfl, rfl, rfl, rfl⟩

/-- VALIDATE writes no request, codec or build register and no buffer (R152). -/
theorem Ending.withUnvalidatedOf_apply (x : Ending .validate) (s : State) :
    withUnvalidatedOf s (x.apply s) = x.apply s := by
  cases x; rfl

/-- What VALIDATE writes does not depend on those either (R152). -/
theorem Ending.apply_withUnvalidatedOf (x : Ending .validate) (u s : State) :
    x.apply (withUnvalidatedOf u s) = withUnvalidatedOf u (x.apply s) := by
  cases x; rfl

theorem sameResponseReads_withUnvalidatedOf {u s : State}
    (h : ∀ a, a ∈ [0, 1, 4, 5, 7, 8] → Memory.read u.rxb a = Memory.read s.rxb a) :
    SameResponseReads s (withUnvalidatedOf u s) :=
  ⟨rfl, rfl, rfl, rfl, rfl, h⟩

/-! ### The rules -/

/-- Settles O19: neither HOST_ENDIAN nor ENDC is among the reads that decide how an instruction ends. -/
theorem noOutputDependsOnHostByteOrder : Obligations.NoOutputDependsOnHostByteOrder := by
  intro i s h e
  rcases (sameReads_withByteOrder h e s).exec i with ⟨g, ⟨x, hs, hs'⟩ | ⟨c, what, hs, hs'⟩⟩
  · exact ⟨_, _, hs, by rw [hs', ← x.apply_withByteOrder]⟩
  · exact ⟨_, e, hs, hs'⟩

/-- Settles O25: the builds' reads and updates both lie outside the receive side. -/
theorem buildsIgnoreReceiveSide : Obligations.BuildsIgnoreReceiveSide := by
  intro i s u hi
  rcases (sameRequestReads_withReceiveSideOf u s).exec hi with ⟨x, hs, hs'⟩ | ⟨c, what, hs, hs'⟩
  · exact ⟨_, hs, x.withReceiveSideOf_apply s, by rw [hs', x.apply_withReceiveSideOf]⟩
  · exact ⟨_, hs, rfl, hs'⟩

/-- Settles O35: of RXB only the six bytes are among VALIDATE's reads, and its update is of result registers. -/
theorem validateReadsNothingElse : Obligations.ValidateReadsNothingElse := by
  intro s u h
  rcases (sameResponseReads_withUnvalidatedOf h).exec_validate with ⟨x, hs, hs'⟩ | ⟨c, what, hs, hs'⟩
  · exact ⟨_, hs, x.withUnvalidatedOf_apply s, by rw [hs', x.apply_withUnvalidatedOf]⟩
  · exact ⟨_, hs, rfl, hs'⟩

end Sys2Proof.Machine
end

section
/-!
PROOFS. Whole-machine rules (60_exceptions.md R180, R183, R196; 10_state.md section 2; 20_memory.md section 1): every
end of an instruction is a finish, so what it may leave in STATUS, DESYNC, TIDCTR and the host's side is said once, by
cases on the ends that exec_cases lists.
-/
namespace Sys2Proof.Machine

/-- Where an instruction is known to go, it has faulted or ended with a status. -/
theorem exec_next_cases {i : Instr} {s t : State} (he : exec i s = .next t) :
    (∃ what, Unwritten s what ∧ t = raiseUnwritten (faultingCommand i) what s) ∨ ExecEnd s i t := by
  rcases exec_cases i s with ⟨what, hw, he'⟩ | ⟨u, he', hend⟩ <;> cases he.symm.trans he'
  · exact .inl ⟨what, hw, rfl⟩
  · exact .inr hend

/-! ### What every end leaves in STATUS and DESYNC -/

/-- WCFE produces the byte of every code but TRANSPORT_ERROR (R181, R182). -/
theorem statusByte_mem_possibleStatus {c : StatusCode} (h : c ≠ .transportError) :
    statusByte c ∈ possibleStatus := by
  cases c with
  | transportError => exact absurd rfl h
  | _ => decide

/-- From s to t an instruction ends with code c: STATUS takes its byte and LATCH is set if it is fatal (R183). -/
structure FinishedWith (c : StatusCode) (s t : State) : Prop where
  possible : c ≠ .transportError
  status : t.status = statusByte c
  desync : t.desync = desyncAfter c s.desync
  faulted : t.faulted = s.faulted

/-- The codes VALIDATE fails with (R141 to R147). -/
theorem ne_transportError_of_failure {c : StatusCode} (hc : c ∈ [StatusCode.badArgument, .frameTruncated,
    .unexpectedFunctionCode, .lengthMismatch, .sizeMismatch, .transactionMismatch]) : c ≠ .transportError := by
  rintro rfl
  simp at hc

theorem ValidateEnd.finishedWith {s t : State} (h : ValidateEnd s t) : ∃ c, FinishedWith c s t := by
  cases h with
  | failed c hc => exact ⟨c, ne_transportError_of_failure hc, rfl, rfl, rfl⟩
  | exception => exact ⟨.deviceException, by decide, rfl, rfl, rfl⟩
  | accepted => exact ⟨.ok, by decide, rfl, rfl, rfl⟩

/-- Every end is a finish, and a fatal code is VALIDATE's (R183). -/
theorem ExecEnd.finishedWith {i : Instr} {s t : State} (h : ExecEnd s i t) :
    ∃ c, FinishedWith c s t ∧ (fatalOf c = true → faultingCommand i = .validate) := by
  cases h with
  | encoded | decoded | built | tid => exact ⟨.ok, ⟨by decide, rfl, rfl, rfl⟩, by simp [fatalOf]⟩
  | rejected => exact ⟨.encodingError, ⟨by decide, rfl, rfl, rfl⟩, by simp [fatalOf]⟩
  | bad => exact ⟨.badCommand, ⟨by decide, rfl, rfl, rfl⟩, by simp [fatalOf]⟩
  | badArgument _ hi => exact ⟨.badArgument, ⟨by decide, rfl, rfl, rfl⟩, fun _ => hi⟩
  | validated _ hi _ _ hv =>
    obtain ⟨c, hc⟩ := hv.finishedWith
    exact ⟨c, hc, fun _ => hi⟩

/-- Every end leaves a status, and is no fault. -/
theorem ExecEnd.completes {i : Instr} {s t : State} (h : ExecEnd s i t) :
    t.faulted = s.faulted ∧ t.status ∈ possibleStatus := by
  obtain ⟨c, hc, -⟩ := h.finishedWith
  exact ⟨hc.faulted, hc.status ▸ statusByte_mem_possibleStatus hc.possible⟩

/-! ### What every end leaves alone -/

/-- From s to t the host's side and the buffers it writes are as they were: RXB, WDB, the parameters, the actions to
come, the last read and the draw (20_memory.md section 1). -/
structure SameForeign (s t : State) : Prop where
  rxb : t.rxb = s.rxb
  wdb : t.wdb = s.wdb
  params : t.params = s.params
  pending : t.pending = s.pending
  lastRead : t.lastRead = s.lastRead
  drawSeed : t.drawSeed = s.drawSeed

theorem ValidateEnd.sameForeign {s t : State} (h : ValidateEnd s t) : SameForeign s t := by
  cases h <;> exact ⟨rfl, rfl, rfl, rfl, rfl, rfl⟩

theorem ExecEnd.sameForeign {i : Instr} {s t : State} (h : ExecEnd s i t) : SameForeign s t := by
  cases h with
  | validated _ _ _ _ hv => exact hv.sameForeign
  | _ => exact ⟨rfl, rfl, rfl, rfl, rfl, rfl⟩

/-- No instruction writes what is the host's. -/
theorem exec_sameForeign {i : Instr} {s t : State} (he : exec i s = .next t) : SameForeign s t := by
  rcases exec_next_cases he with ⟨what, -, rfl⟩ | hend
  · exact ⟨rfl, rfl, rfl, rfl, rfl, rfl⟩
  · exact hend.sameForeign

theorem ExecEnd.txb {i : Instr} {s t : State} (h : ExecEnd s i t) (hr : i ≠ .buildrd) (hw : i ≠ .buildwr) :
    t.txb = s.txb := by
  cases h with
  | rejected _ hi | built _ hi => simp [hr, hw] at hi
  | validated _ _ _ _ hv => cases hv <;> rfl
  | _ => rfl

theorem ExecEnd.tidctr {i : Instr} {s t : State} (h : ExecEnd s i t) (hi : i ≠ .tidnext) : t.tidctr = s.tidctr := by
  cases h with
  | tid => exact absurd rfl hi
  | validated _ _ _ _ hv => cases hv <;> rfl
  | _ => rfl

/-! ### A FAULTED state -/

/-- A FAULTED state stays as it is, however many steps are taken (R196). -/
theorem run_of_faulted {s : State} (h : s.faulted ≠ none) (n : Nat) : Host.Core.run core n s = .next s := by
  obtain ⟨m, hm⟩ := Option.ne_none_iff_exists'.mp h
  induction n with
  | zero => rfl
  | succ n ih => rw [run_succ (step_of_faulted hm), ih]

/-! ### The rules -/

/-- Settles O43: TIDNEXT has one end, and no other end writes TIDCTR. -/
theorem onlyTidnextWritesTidctr : Obligations.OnlyTidnextWritesTidctr := by
  intro i s t he
  split
  · next hi =>
    subst hi
    cases (exec_tidnext s).symm.trans he
    rfl
  · next hi =>
    rcases exec_next_cases he with ⟨what, -, rfl⟩ | hend
    · rfl
    · exact hend.tidctr hi

/-- Settles O47: an instruction that does not fault has ended in a finish. -/
theorem finishSetsStatusAndLatch : Obligations.FinishSetsStatusAndLatch := by
  intro i s t hs he ht
  rcases exec_next_cases he with ⟨what, -, rfl⟩ | hend
  · simp at ht
  · obtain ⟨c, hc, hfatal⟩ := hend.finishedWith
    have field : statusFatalField t.status = fatalOf c := by rw [hc.status, statusFatalField_statusByte]
    rw [field, hc.desync]
    exact ⟨hend.completes.2, fun h => if_pos h, fun h => desyncAfter_of_not_fatal h s.desync, hfatal⟩

/-- Settles O48: the two ways are those of exec_cases. -/
theorem everyCommandEndsInOneOfTwoWays : Obligations.EveryCommandEndsInOneOfTwoWays := by
  intro i s
  rcases exec_cases i s with ⟨what, -, he⟩ | ⟨t, he, hend⟩
  · exact .inr ⟨what, he⟩
  · exact .inl ⟨t, he, hend.completes⟩

/-- Settles O49: an end with a status sets no mark, so the next state is the fault's, which is quiescent. -/
theorem faultWritesOnlyTheMark : Obligations.FaultWritesOnlyTheMark := by
  intro i s t hs he ht
  refine ⟨?_, run_of_faulted ht⟩
  rcases exec_next_cases he with ⟨what, hw, rfl⟩ | hend
  · exact ⟨what, hw, rfl⟩
  · exact absurd (hend.completes.1.trans hs) ht

/-- Settles O52: no end of an instruction writes what is the host's, and only a build's writes TXB. -/
theorem instructionsKeepForeignState : Obligations.InstructionsKeepForeignState := by
  intro i s t he
  have same := exec_sameForeign he
  refine ⟨fun a => ?_, fun a => ?_, fun hr hw a => ?_, same.params, same.pending, same.lastRead, same.drawSeed⟩
  · exact congrArg (Memory.read · a) same.rxb
  · exact congrArg (Memory.read · a) same.wdb
  · rcases exec_next_cases he with ⟨what, -, rfl⟩ | hend
    · rfl
    · exact congrArg (Memory.read · a) (hend.txb hr hw)

end Sys2Proof.Machine
end

section
/-!
PROOFS. The host's side (10_state.md section 5, 20_memory.md sections 1, 3 and 4): the numbers of the register map, and
what each of the four host actions does in a step.
-/
namespace Sys2Proof.Machine

/-! ### Register numbers -/

theorem regOfNumber_regNumber (r : RegName) : regOfNumber (regNumber r) = some r := by
  cases r <;> rfl

/-- A number names the register whose number it is (R21). -/
theorem regNumber_of_regOfNumber {n : Byte} {r : RegName} (h : regOfNumber n = some r) : regNumber r = n :=
  eq_of_beq (List.find?_some (p := fun r => regNumber r == n) h)

/-- No other register has CMD's number. -/
theorem regNumber_ne_cmd {r : RegName} (hr : r ≠ .cmd) : regNumber r ≠ regNumber .cmd := fun h => hr <| by
  simpa [regOfNumber_regNumber] using congrArg regOfNumber h

/-- The numbers from 0x15 up are reserved (R41). -/
theorem regOfNumber_of_reserved {n : Byte} (h : 0x15 ≤ n.toNat) : regOfNumber n = none := by
  cases hr : regOfNumber n with
  | none => rfl
  | some r =>
    have below : (regNumber r).toNat < 0x15 := by cases r <;> decide
    rw [regNumber_of_regOfNumber hr] at below
    omega

/-! ### A write of a register -/

/-- A value that fits a register's width comes back from it as it was. -/
theorem setWidth_setWidth_of_lt {w : Nat} {v : Word} (h : v.toNat < 2 ^ w) : (v.setWidth w).setWidth 32 = v := by
  apply BitVec.eq_of_toNat_eq
  rw [BitVec.toNat_setWidth, BitVec.toNat_setWidth, Nat.mod_eq_of_lt h, Nat.mod_eq_of_lt v.isLt]

/-- CTRL keeps bit 0 of the value written (R31). -/
theorem setWidth_ctrlWritten (v : Word) : (ctrlWritten (v.setWidth 8)).setWidth 32 = v &&& 0x01#32 := by
  apply BitVec.eq_of_toNat_eq
  simp [ctrlWritten]

theorem regView_writeOperandReg_same {r : RegName} {v : Word} (s : State) (hw : hostWritable r = true) (hc : r ≠ .cmd)
    (hv : v.toNat < 2 ^ regWidth r) :
    regView r (writeOperandReg r v s) = OperandReg.of (if r = .ctrl then v &&& 0x01#32 else v) := by
  have fits := setWidth_setWidth_of_lt hv
  cases r with
  | cmd => exact absurd rfl hc
  | ctrl => exact congrArg OperandReg.of (setWidth_ctrlWritten v)
  | val => rfl
  | wb0 | wb1 | wb2 | wb3 | tidin | unit | start | count | efc | rxlen => exact congrArg OperandReg.of fits
  | status | excode | txlen | expsize | payoff | paylen | tidctr | desync => cases hw

/-- A write changes one field, and no other register is a view of that field. -/
theorem regView_writeOperandReg_other {r r' : RegName} (h : r' ≠ r) (v : Word) (s : State) :
    regView r' (writeOperandReg r v s) = regView r' s := by
  cases r <;> cases r' <;> first | exact absurd rfl h | rfl

@[simp] theorem bufferOf_writeOperandReg (b : Buffer) (r : RegName) (v : Word) (s : State) :
    bufferOf b (writeOperandReg r v s) = bufferOf b s := by
  cases r <;> rfl

theorem writeOperandReg_endc (r : RegName) (v : Word) (s : State) : (writeOperandReg r v s).endc = s.endc := by
  cases r <;> rfl

theorem sameSurroundings_writeOperandReg (r : RegName) (v : Word) (s : State) :
    SameSurroundings s (writeOperandReg r v s) := by
  cases r <;> exact ⟨rfl, rfl, rfl, rfl, rfl⟩

/-! ### A read -/

/-- What a read action hands the host (R45, R61); a write hands over nothing, for which 0 stands here. -/
def readValue (act : HostAction) (s : State) : Word :=
  match act with
  | .readReg n => (regOfNumber n).elim 0#32 (fun r => hostRegValue r s)
  | .readBuf b a => (hostByteValue b a s).setWidth 32
  | .writeReg _ _ => 0#32
  | .writeBuf _ _ _ => 0#32

@[simp] theorem readValue_takeAction (act : HostAction) (rest : List HostAction) (s : State) :
    readValue act (takeAction rest s) = readValue act s := by
  cases act <;> simp [readValue]

@[simp] theorem readValue_handHost (act : HostAction) (x : Word) (s : State) :
    readValue act (handHost x s) = readValue act s := by
  cases act <;> simp [readValue]

/-- A read that goes on hands over its value and does nothing else (R58). -/
theorem hostAct_read_next {act : HostAction} {s t : State}
    (hr : (∃ n, act = .readReg n) ∨ ∃ b a, act = .readBuf b a) (h : hostAct act s = .next t) :
    t = handHost (readValue act s) s := by
  rcases hr with ⟨n, rfl⟩ | ⟨b, a, rfl⟩
  · simpa [hostAct, hostReadReg_eq, readValue, eq_comm] using h
  · simp only [hostAct, hostReadBuf_eq] at h
    split at h
    · simpa [readValue, eq_comm] using h
    · cases h

/-- A step whose action is a read takes it, and hands over its value. -/
theorem step_read_next {act : HostAction} {rest : List HostAction} {s t : State} (h : step s = .next t)
    (hr : (∃ n, act = .readReg n) ∨ ∃ b a, act = .readBuf b a) (hf : s.faulted = none)
    (hp : s.pending = act :: rest) : t = handHost (readValue act s) (takeAction rest s) := by
  rw [← readValue_takeAction act rest s]
  exact hostAct_read_next hr ((step_of_pending hf hp).symm.trans h)

/-- A draw is cut to the width of its register (R45). -/
theorem drawOf_lt (r : RegName) (draw : Word) : (drawOf r draw).toNat < 2 ^ regWidth r := by
  rw [drawOf, BitVec.toNat_setWidth]
  exact Nat.lt_of_le_of_lt (Nat.mod_le _ _) (draw.setWidth (regWidth r)).isLt

/-! ### A write of a buffer -/

/-- A write of a byte of RXB or WDB stores it, and leaves the other buffers and every register alone (R61). -/
theorem hostWriteBuf_stores {b : Buffer} {a : Nat} {s : State} (v : Byte) (hb : b ≠ .txb)
    (ha : a < b.capacity s.params) :
    ∃ t, hostWriteBuf b a v s = .next t ∧ bufferOf b t = Memory.write (bufferOf b s) a v ∧
      (∀ c, c ≠ b → bufferOf c t = bufferOf c s) ∧ SameRegsBut [] s t ∧ t.endc = s.endc ∧
      SameSurroundings s t := by
  cases b with
  | txb => exact absurd rfl hb
  | rxb =>
    refine ⟨storeRxb a v s, if_pos ha, rfl, fun c hc => ?_, fun r _ => by cases r <;> rfl, rfl, rfl, rfl, rfl,
      rfl, rfl⟩
    cases c with
    | rxb => exact absurd rfl hc
    | _ => rfl
  | wdb =>
    refine ⟨storeWdb a v s, if_pos ha, rfl, fun c hc => ?_, fun r _ => by cases r <;> rfl, rfl, rfl, rfl, rfl,
      rfl, rfl⟩
    cases c with
    | wdb => exact absurd rfl hc
    | _ => rfl

/-! ### The rules -/

/-- Settles O11: the two sides are two of the three cases of a step. -/
theorem waitsUnchangedAndFaultedIsQuiescent : Obligations.WaitsUnchangedAndFaultedIsQuiescent := by
  intro s h
  rcases step_cases s with ⟨-, hstep⟩ | ⟨act, rest, hf, hp, -⟩
  · exact hstep
  · simp [hf, hp] at h

/-- Settles O6: register number 0 is CMD, which a write runs and a read gives as 0. -/
theorem stepRunsTheDecodedCommand : Obligations.StepRunsTheDecodedCommand := by
  refine fun s op i rest hf => ⟨fun hp hi => ?_, fun hp => ?_⟩
  · obtain rfl : decodeCommand op = i := by simpa [decode, decodeByte] using hi
    rw [step_of_pending hf hp, hostAct, hostWriteReg_cmd]
  · rw [step_of_pending hf hp, hostAct, hostReadReg_eq]
    rfl

/-- Settles O7: the register a number names decides the clause, and a reserved number names none. -/
theorem hostWriteRegisterRule : Obligations.HostWriteRegisterRule := by
  intro s n v rest hf hp
  have hstep : step s = hostWriteReg n v (takeAction rest s) := step_of_pending hf hp
  refine ⟨fun r hr hw hc hv => ?_, fun hr hv => ?_, fun r hr hw => ?_, fun hn => ?_⟩
  · refine ⟨writeOperandReg r v (takeAction rest s), by simp [hstep, hostWriteReg, hr, hw, hv, hc],
      regView_writeOperandReg_same _ hw hc hv, fun r' hr' => ?_, fun b a => ?_, ?_,
      sameSurroundings_writeOperandReg r v _⟩
    · rw [regView_writeOperandReg_other (by simpa using hr'), regView_takeAction]
    · rw [bufferOf_writeOperandReg, bufferOf_takeAction]
    · rw [writeOperandReg_endc, takeAction_endc]
  · simp [hstep, hostWriteReg, hr, hostWritable, regWidth, hv, runCommand_eq]
  · simp [hstep, hostWriteReg, hr, hw]
  · simp [hstep, hostWriteReg, regOfNumber_of_reserved hn]

/-- Settles O8: a read hands over the value of the register its number names, or the draw where it is unwritten. -/
theorem hostReadRegisterRule : Obligations.HostReadRegisterRule := by
  intro s n rest hf hp
  have hstep : step s = .next (handHost (readValue (.readReg n) s) (takeAction rest s)) := by
    rw [step_of_pending hf hp, ← readValue_takeAction (.readReg n) rest s]
    exact hostReadReg_eq n _
  have named : ∀ r, regOfNumber n = some r → readValue (.readReg n) s = hostRegValue r s :=
    fun r hr => by rw [readValue, hr]; rfl
  refine ⟨fun r hr hw => ?_, fun r hr hw => ⟨hostRegValue r s, ?_, ?_⟩, fun hn => ?_⟩
  · rw [hstep, named r hr, hostRegValue, if_pos hw]
  · rw [hostRegValue, if_neg (by simp [hw])]
    exact drawOf_lt r _
  · rw [hstep, named r hr]
  · rw [hstep]
    rcases hn with rfl | hn
    · rfl
    · rw [readValue, regOfNumber_of_reserved hn]
      rfl

/-- Settles O9: the capacity decides whether the action is made, and the buffer what it does. -/
theorem hostBufferAccess : Obligations.HostBufferAccess := by
  intro s b a v rest hf
  have write : s.pending = .writeBuf b a v :: rest → step s = hostWriteBuf b a v (takeAction rest s) :=
    step_of_pending hf
  have read : s.pending = .readBuf b a :: rest → a < b.capacity s.params →
      step s = .next (handHost ((hostByteValue b a s).setWidth 32) (takeAction rest s)) := fun hp ha => by
    rw [step_of_pending hf hp, ← hostByteValue_takeAction b a rest s]
    exact if_pos ha
  refine ⟨fun hp ha hb => ?_, fun hp ha hv => ?_, fun hp ha _ => ⟨_, read hp ha⟩, ?_, fun hp ha => ?_⟩
  · obtain ⟨t, ht, hbuf, hother, hregs, hendc, hrest⟩ := hostWriteBuf_stores (s := takeAction rest s) v hb ha
    rw [bufferOf_takeAction] at hbuf
    refine ⟨t, (write hp).trans ht, ?_, fun x hx => ?_, fun c hc x => ?_, fun r hr => ?_, hendc, hrest⟩
    · rw [hbuf, Memory.read_write_same]
    · rw [hbuf, Memory.read_write_other _ _ hx]
    · rw [hother c hc, bufferOf_takeAction]
    · rw [hregs r hr, regView_takeAction]
  · rw [read hp ha, hostByteValue, hv]
  · rintro (hp | hp) ha <;> rw [step_of_pending hf hp] <;> exact if_neg ha
  · rw [step_of_pending hf hp]
    exact if_pos ha

/-- Settles O10: the second read is made on a state that differs in nothing the value read depends on. -/
theorem repeatedHostReadsAgree : Obligations.RepeatedHostReadsAgree := by
  intro s t u act rest hf hr hp ht hu
  obtain rfl := step_read_next ht hr hf hp
  have second := step_read_next hu hr hf rfl
  rw [readValue_handHost, readValue_takeAction] at second
  subst second
  exact ⟨by simp, rfl⟩

end Sys2Proof.Machine
end

section
/-!
PROOFS. What a step can do to the state (20_memory.md R61, R62), said once as the ends of a host action, and what
follows over a step and over a run: the transaction id sequence (43_transaction_id.md), the sticky LATCH (10_state.md
R40), and the invariant of the machine.
-/
namespace Sys2Proof.Machine

/-! ### Where a host action can end -/

/-- The states a host action can go on to. -/
inductive HostEnd (s : State) : HostAction → State → Prop where
  | ignored (n : Byte) (v : Word) (hn : n ≠ regNumber .cmd) : HostEnd s (.writeReg n v) s
  | ran (op : Byte) (t : State) (he : exec (decodeCommand op) s = .next t) :
      HostEnd s (.writeReg (regNumber .cmd) (op.setWidth 32)) t
  | wrote (r : RegName) (v : Word) (hc : r ≠ .cmd) : HostEnd s (.writeReg (regNumber r) v) (writeOperandReg r v s)
  | readReg (n : Byte) (x : Word) : HostEnd s (.readReg n) (handHost x s)
  | readBuf (b : Buffer) (a : Nat) (x : Word) : HostEnd s (.readBuf b a) (handHost x s)
  | storedRxb (a : Nat) (v : Byte) (ha : a < s.params.rxCap) : HostEnd s (.writeBuf .rxb a v) (storeRxb a v s)
  | storedWdb (a : Nat) (v : Byte) (ha : a < Config.wdbCapacity) : HostEnd s (.writeBuf .wdb a v) (storeWdb a v s)

theorem hostEnd_of_writeReg {n : Byte} {v : Word} {s t : State} (h : hostWriteReg n v s = .next t) :
    HostEnd s (.writeReg n v) t := by
  rcases hostWriteReg_cases n v s with ⟨hr, e⟩ | ⟨r, hr, hends⟩
  · cases h.symm.trans e
    refine .ignored n v fun hn => ?_
    rw [hn, regOfNumber_regNumber] at hr
    cases hr
  · rw [← regNumber_of_regOfNumber hr]
    rcases hends with ⟨hw, e⟩ | ⟨-, -, e⟩ | ⟨-, hv, rfl, e⟩ | ⟨-, -, hc, e⟩
    · cases h.symm.trans e
      exact .ignored _ v (regNumber_ne_cmd fun hc => by simp [hc, hostWritable] at hw)
    · cases h.symm.trans e
    · rw [← setWidth_setWidth_of_lt hv]
      exact .ran _ t (e.symm.trans h)
    · cases h.symm.trans e
      exact .wrote r v hc

theorem hostEnd_of_writeBuf {b : Buffer} {a : Nat} {v : Byte} {s t : State} (h : hostWriteBuf b a v s = .next t) :
    HostEnd s (.writeBuf b a v) t := by
  unfold hostWriteBuf at h
  split at h
  · next ha =>
    cases b with
    | txb => cases h
    | rxb => cases h; exact .storedRxb a v ha
    | wdb => cases h; exact .storedWdb a v ha
  · cases h

/-- Everything a host action that goes on can do. -/
theorem hostEnd_of_hostAct {act : HostAction} {s t : State} (h : hostAct act s = .next t) : HostEnd s act t := by
  cases act with
  | writeReg n v => exact hostEnd_of_writeReg h
  | readReg n =>
    obtain rfl := hostAct_read_next (.inl ⟨n, rfl⟩) h
    exact .readReg n _
  | writeBuf b a v => exact hostEnd_of_writeBuf h
  | readBuf b a =>
    obtain rfl := hostAct_read_next (.inr ⟨b, a, rfl⟩) h
    exact .readBuf b a _

/-- Everything a step that goes on can do: nothing, or the first action pending. -/
theorem step_next_cases {s t : State} (h : step s = .next t) :
    t = s ∨ ∃ act rest, s.pending = act :: rest ∧ HostEnd (takeAction rest s) act t := by
  rcases step_cases s with ⟨-, e⟩ | ⟨act, rest, -, hp, e⟩
  · cases h.symm.trans e
    exact .inl rfl
  · exact .inr ⟨act, rest, hp, hostEnd_of_hostAct (e.symm.trans h)⟩

/-! ### The queue and the transaction id counter -/

/-- A host action leaves the actions after it. -/
theorem HostEnd.pending {act : HostAction} {s t : State} (h : HostEnd s act t) : t.pending = s.pending := by
  cases h with
  | ran op t he => exact (exec_sameForeign he).pending
  | wrote r v => cases r <;> rfl
  | _ => rfl

theorem decodeCommand_eq_tidnext_iff (op : Byte) : decodeCommand op = .tidnext ↔ op = encodeByte .tidnext := by
  refine ⟨fun h => ?_, fun h => h ▸ rfl⟩
  rw [← h, (isInstrOf_decodeCommand op).2.2]

theorem isTidnext_of_ne {n : Byte} (hn : n ≠ regNumber .cmd) (v : Word) : isTidnext (.writeReg n v) = false := by
  simp [isTidnext, commandLine, wr, hn]

/-- A write of CMD is a TIDNEXT exactly if its byte decodes to one. -/
theorem isTidnext_writeCmd_iff (op : Byte) :
    isTidnext (.writeReg (regNumber .cmd) (op.setWidth 32)) = true ↔ decodeCommand op = .tidnext := by
  have same : op.setWidth 32 = (encodeByte .tidnext).setWidth 32 ↔ op = encodeByte .tidnext :=
    ⟨fun h => by simpa using congrArg (BitVec.setWidth 8) h, fun h => by rw [h]⟩
  simp [isTidnext, commandLine, wr, same, decodeCommand_eq_tidnext_iff]

/-- TIDCTR counts the TIDNEXTs (R39). -/
theorem HostEnd.tidctr {act : HostAction} {s t : State} (h : HostEnd s act t) :
    t.tidctr = if isTidnext act then s.tidctr + 1#16 else s.tidctr := by
  cases h with
  | ran op t he => simp only [isTidnext_writeCmd_iff, onlyTidnextWritesTidctr _ _ _ he]
  | ignored n v hn => simp [isTidnext_of_ne hn]
  | wrote r v hc =>
    rw [isTidnext_of_ne (regNumber_ne_cmd hc)]
    cases r <;> rfl
  | readReg | readBuf | storedRxb | storedWdb => rfl

theorem tidnextCount_singleton (act : HostAction) : tidnextCount [act] = if isTidnext act then 1 else 0 := by
  simp [tidnextCount, List.countP_singleton]

/-- A step takes at most one action, and the counter advances by the TIDNEXTs among those taken. -/
theorem step_taken {s t : State} (h : step s = .next t) : ∃ taken : List HostAction,
    s.pending = taken ++ t.pending ∧ t.tidctr = s.tidctr + BitVec.ofNat 16 (tidnextCount taken) := by
  rcases step_next_cases h with rfl | ⟨act, rest, hp, hend⟩
  · exact ⟨[], rfl, by simp [tidnextCount]⟩
  · refine ⟨[act], by rw [hp, hend.pending]; rfl, ?_⟩
    rw [hend.tidctr, tidnextCount_singleton]
    cases isTidnext act <;> simp

/-! ### LATCH -/

theorem desyncLatch_desyncAfter {d : Byte} (c : StatusCode) (h : desyncLatch d = true) :
    desyncLatch (desyncAfter c d) = true := by
  rw [desyncAfter]
  split
  · simp [desyncLatch]
  · exact h

/-- No instruction clears LATCH. -/
theorem exec_keeps_latch {i : Instr} {s t : State} (he : exec i s = .next t) (h : desyncLatch s.desync = true) :
    desyncLatch t.desync = true := by
  rcases exec_next_cases he with ⟨what, -, rfl⟩ | hend
  · exact h
  · obtain ⟨c, hc, -⟩ := hend.finishedWith
    rw [hc.desync]
    exact desyncLatch_desyncAfter c h

theorem HostEnd.keeps_latch {act : HostAction} {s t : State} (hend : HostEnd s act t)
    (h : desyncLatch s.desync = true) : desyncLatch t.desync = true := by
  cases hend with
  | ran op t he => exact exec_keeps_latch he h
  | wrote r v => cases r <;> exact h
  | _ => exact h

/-! ### The invariant -/

/-- A finish keeps the invariant: STATUS takes a byte WCFE can produce, and DESYNC gets no bit but LATCH. -/
theorem MachineInv.finish {s : State} (h : MachineInv s) {c : StatusCode} (hc : c ≠ .transportError) :
    MachineInv (finish c s) := by
  have desync : desyncAfter c s.desync = 0x00#8 ∨ desyncAfter c s.desync = 0x01#8 := by
    rw [desyncAfter]
    split
    · rcases h.desync with hd | hd <;> simp [hd]
    · exact h.desync
  exact { h with status := statusByte_mem_possibleStatus hc, desync := desync }

/-- An accepted build leaves TXLEN bytes of TXB written. -/
theorem MachineInv.emitRequest {s : State} (h : MachineInv s) {frame : List Byte} {n : Half} (e : Half)
    (hn : frame.length = n.toNat) (hcap : n.toNat ≤ 267) : MachineInv (emitRequest frame n e s) := by
  have txb : Memory.wf (Memory.writeBytes s.txb 0 frame) = true ∧
      Memory.within Config.txbCapacity (Memory.writeBytes s.txb 0 frame) = true :=
    ⟨Memory.wf_writeBytes _ _ _ h.txb.1, Memory.within_writeBytes _ _ _ _ h.txb.2 (by rwa [Nat.zero_add, hn])⟩
  have written : ∀ a, a < n.toNat → (Memory.read (Memory.writeBytes s.txb 0 frame) a).isSome = true := by
    intro a ha
    simp [Memory.read_writeBytes_zero, hn, ha]
  exact MachineInv.finish (s := { s with txb := _, txlen := n, expsize := e })
    { h with txb := txb, txlen := ⟨hcap, written⟩ } (by decide)

/-- A result of VALIDATE keeps the invariant if its slice lies in RXB. -/
theorem MachineInv.validated {s : State} (h : MachineInv s) {c : StatusCode} (hc : c ≠ .transportError)
    (excode : Byte) {off len : Half} (hcap : off.toNat + len.toNat ≤ s.params.rxCap) :
    MachineInv (Machine.finish c { s with excode := excode, payoff := off, paylen := len }) :=
  MachineInv.finish (s := { s with excode := excode, payoff := off, paylen := len }) { h with payload := hcap } hc

theorem ValidateEnd.keeps_inv {s t : State} (hend : ValidateEnd s t) (h : MachineInv s)
    (hcap : s.rxlen.value.toNat ≤ s.params.rxCap) : MachineInv t := by
  cases hend with
  | failed c hc => exact h.validated (ne_transportError_of_failure hc) _ (Nat.zero_le _)
  | exception code => exact h.validated (by decide) code (Nat.zero_le _)
  | accepted off len hlen => exact h.validated (by decide) _ (hlen.trans hcap)

theorem ExecEnd.keeps_inv {i : Instr} {s t : State} (hend : ExecEnd s i t) (h : MachineInv s) : MachineInv t := by
  cases hend with
  | encoded _ _ wire =>
    exact MachineInv.finish (s := writeLanes wire (determineEndian s)) { h with } (c := .ok) (by decide)
  | decoded _ _ v => exact MachineInv.finish (s := writeVal v (determineEndian s)) { h with } (c := .ok) (by decide)
  | tid =>
    exact MachineInv.finish (s := { s with tidin := OperandReg.of s.tidctr, tidctr := s.tidctr + 1#16 }) { h with }
      (c := .ok) (by decide)
  | rejected =>
    exact MachineInv.finish (s := { s with txlen := 0x0000#16, expsize := 0x0000#16 })
      { h with txlen := ⟨Nat.zero_le _, fun a ha => absurd ha (Nat.not_lt_zero a)⟩ } (c := .encodingError)
      (by decide)
  | built _ _ frame n e hn hcap => exact h.emitRequest e hn hcap
  | validated _ _ _ hcap hv => exact hv.keeps_inv h hcap
  | badArgument => exact h.validated (by decide) _ (Nat.zero_le _)
  | bad => exact h.finish (by decide)

/-- CTRL keeps bits 7:1 at 0 (R31). -/
theorem ctrlWritten_eq (v : Byte) : ctrlWritten v = 0x00#8 ∨ ctrlWritten v = 0x01#8 := by
  have value : (ctrlWritten v).toNat = v.toNat % 2 := by simp [ctrlWritten]
  simp only [BitVec.toNat_eq, value]
  exact Nat.mod_two_eq_zero_or_one v.toNat

theorem MachineInv.writeOperandReg {s : State} (h : MachineInv s) (r : RegName) (v : Word) :
    MachineInv (writeOperandReg r v s) := by
  cases r with
  | ctrl => exact { h with ctrl := ctrlWritten_eq _ }
  | _ => exact { h with }

/-- Every host action keeps the invariant. -/
theorem HostEnd.keeps_inv {act : HostAction} {s t : State} (hend : HostEnd s act t) (h : MachineInv s) :
    MachineInv t := by
  cases hend with
  | ignored => exact h
  | ran op t he =>
    rcases exec_next_cases he with ⟨what, -, rfl⟩ | hend
    · exact { h with }
    · exact hend.keeps_inv h
  | wrote r v => exact h.writeOperandReg r v
  | readReg | readBuf => exact { h with }
  | storedRxb a v ha =>
    exact { h with rxb := ⟨Memory.wf_write _ a v h.rxb.1, Memory.within_write _ _ a v h.rxb.2 ha⟩ }
  | storedWdb a v ha =>
    exact { h with wdb := ⟨Memory.wf_write _ a v h.wdb.1, Memory.within_write _ _ a v h.wdb.2 ha⟩ }

/-- After reset nothing is written, and there is no frame and no slice. -/
theorem machineInv_resetWith {p : Params} (hp : 264 ≤ p.rxCap) : MachineInv (State.resetWith p) where
  txb := ⟨rfl, rfl⟩
  rxb := ⟨rfl, rfl⟩
  wdb := ⟨rfl, rfl⟩
  rxCap := hp
  status := (by decide : 0x00#8 ∈ possibleStatus)
  ctrl := .inr rfl
  desync := .inl rfl
  txlen := ⟨Nat.zero_le _, fun a ha => absurd ha (Nat.not_lt_zero a)⟩
  payload := Nat.zero_le _

/-! ### The rules -/

/-- Settles O44, by induction on the number of steps: a run takes the actions of its first step and then those of the
rest. -/
theorem transactionIdSequence : Obligations.TransactionIdSequence := by
  refine ⟨fun p => rfl, fun n => ?_⟩
  induction n with
  | zero =>
    intro s t h
    cases h
    exact ⟨[], rfl, by simp [tidnextCount]⟩
  | succ n ih =>
    intro s t h
    obtain ⟨u, hstep, hrun⟩ := run_succ_next h
    obtain ⟨first, hfirst, hctr⟩ := step_taken hstep
    obtain ⟨later, hlater, hctr'⟩ := ih u t hrun
    refine ⟨first ++ later, by rw [hfirst, hlater, List.append_assoc], ?_⟩
    rw [hctr', hctr, tidnextCount, tidnextCount, tidnextCount, List.countP_append, BitVec.ofNat_add, BitVec.add_assoc]

/-- Settles O51: only the end of an instruction writes DESYNC, and DESYNC is none of its reads. -/
theorem latchIsStickyAndInert : Obligations.LatchIsStickyAndInert := by
  refine ⟨fun s t h hl => ?_, exec_with_desync⟩
  rcases step_next_cases h with rfl | ⟨act, rest, -, hend⟩
  · exact hl
  · exact hend.keeps_latch hl

/-- Settles O53: to take an action off the queue keeps the invariant, and so does the action. -/
theorem stepKeepsInvariant : Obligations.StepKeepsInvariant := by
  intro s t h hstep
  rcases step_next_cases hstep with rfl | ⟨act, rest, -, hend⟩
  · exact h
  · exact hend.keeps_inv { h with }

/-- Settles O54: the open RX_CAP is at least 264. -/
theorem resetMeetsInvariant : Obligations.ResetMeetsInvariant :=
  ⟨machineInv_resetWith rxCap_reset_ge, fun _ => machineInv_resetWith⟩

end Sys2Proof.Machine
end

section
/-!
PROOFS. The laws of an accepted build (41_frame_build.md section 3): both frames begin with the header of R75 and the
function code, and their length field is six less than their length.
-/
namespace Sys2Proof.Machine

/-- A command that ends without a fault ends as its body does. -/
theorem body_ok_of_exec {i c : Instr} {s t : State} {body : Except Place State} (he : exec i s = commit c s body)
    (h : exec i s = .next t) (ht : t.faulted = none) : body = .ok t := by
  rcases commit_cases c s body with ⟨u, rfl, hc⟩ | ⟨what, -, hc⟩
  · cases h.symm.trans (he.trans hc)
    rfl
  · cases h.symm.trans (he.trans hc)
    simp at ht

/-- TXB begins with a request header with this transaction id and length, and then the function code (R75). -/
def HeaderAt (txb : Memory) (tid length : Half) (functionCode : Byte) : Prop :=
  ∃ b0 b1 b4 b5 : Byte, Memory.read txb 0 = some b0 ∧ Memory.read txb 1 = some b1 ∧ b0 ++ b1 = tid ∧
    Memory.read txb 2 = some 0x00#8 ∧ Memory.read txb 3 = some 0x00#8 ∧
    Memory.read txb 4 = some b4 ∧ Memory.read txb 5 = some b5 ∧ b4 ++ b5 = length ∧
    Memory.read txb 7 = some functionCode

theorem headerAt_of_frame {frame rest : List Byte} {tid length : Half} {unit functionCode : Byte}
    (h : frame = mbapHeader tid length unit ++ functionCode :: rest) (txb : Memory) :
    HeaderAt (Memory.writeBytes txb 0 frame) tid length functionCode := by
  subst h
  refine ⟨tid.extractLsb' 8 8, tid.extractLsb' 0 8, length.extractLsb' 8 8, length.extractLsb' 0 8, ?_, ?_,
    joinBE16_bytes tid, ?_, ?_, ?_, ?_, joinBE16_bytes length, ?_⟩ <;>
  · rw [Memory.read_writeBytes_zero, if_pos (by simp [mbapHeader, be16])]
    rfl

theorem readRequestFrame_eq_header (o : RequestOperands) :
    readRequestFrame o = mbapHeader o.tid 0x0006#16 o.unit ++
      functionCodeRead :: (be16 o.start ++ be16 (o.count.setWidth 16)) := by
  simp [readRequestFrame]

theorem writeRequestFrame_eq_header (o : RequestOperands) (data : List Byte) :
    writeRequestFrame o data = mbapHeader o.tid (BitVec.ofNat 16 (7 + 2 * o.count.toNat)) o.unit ++
      functionCodeWrite :: (be16 o.start ++ (be16 (o.count.setWidth 16) ++
        (BitVec.ofNat 8 (2 * o.count.toNat) :: data))) := by
  simp [writeRequestFrame]

/-- A build that ends with OK has emitted its frame, whose header carries TIDIN and the length after byte 5. -/
theorem buildrd_ok {s t : State} (h : exec .buildrd s = .next t) (ht : t.faulted = none) (hok : t.status = 0x00#8) :
    HeaderAt t.txb s.tidin.value 6#16 0x03#8 ∧ t.txlen = 12#16 := by
  have hbody : buildReadBody s = .ok t := body_ok_of_exec rfl h ht
  rcases buildReadBody_cases s with ⟨what, -, e⟩ | ⟨o, -, -, e⟩ | ⟨o, ho, -, e⟩ <;> cases hbody.symm.trans e
  · cases hok
  · obtain ⟨-, rfl⟩ := readRequestOperands_ok ho
    rw [emitRequest_txb]
    exact ⟨headerAt_of_frame (readRequestFrame_eq_header _) s.txb, rfl⟩

theorem buildwr_ok {s t : State} (h : exec .buildwr s = .next t) (ht : t.faulted = none) (hok : t.status = 0x00#8) :
    s.count.value.toNat ≤ 127 ∧
    HeaderAt t.txb s.tidin.value (BitVec.ofNat 16 (7 + 2 * s.count.value.toNat)) 0x10#8 ∧
    t.txlen = BitVec.ofNat 16 (13 + 2 * s.count.value.toNat) := by
  have hbody : buildWriteBody s = .ok t := body_ok_of_exec rfl h ht
  rcases buildWriteBody_cases s with ⟨w, -, e⟩ | ⟨o, -, -, e⟩ | ⟨o, w, -, -, -, e⟩ | ⟨o, data, ho, hc, -, e⟩ <;>
    cases hbody.symm.trans e
  · cases hok
  · obtain ⟨-, rfl⟩ := readRequestOperands_ok ho
    rw [emitRequest_txb]
    exact ⟨hc, headerAt_of_frame (writeRequestFrame_eq_header _ data) s.txb, rfl⟩

/-- Settles O24: the two frames have a header each, and a count of at most 127 keeps both lengths in 16 bits. -/
theorem builtFrameLaws : Obligations.BuiltFrameLaws := by
  rintro i s t (rfl | rfl) - he ht hok
  · obtain ⟨⟨b0, b1, b4, b5, h0, h1, hid, h2, h3, h4, h5, hlen, h7⟩, htx⟩ := buildrd_ok he ht hok
    exact ⟨b0, b1, b4, b5, h0, h1, hid, h2, h3, h4, h5, by rw [hlen, htx]; rfl,
      fun _ => ⟨h7, by rw [htx]; rfl⟩, nofun⟩
  · obtain ⟨hc, ⟨b0, b1, b4, b5, h0, h1, hid, h2, h3, h4, h5, hlen, h7⟩, htx⟩ := buildwr_ok he ht hok
    have txlen : t.txlen.toNat = 13 + 2 * s.count.value.toNat := by
      rw [htx]
      exact Nat.mod_eq_of_lt (by omega)
    have length : (b4 ++ b5).toNat = 7 + 2 * s.count.value.toNat := by
      rw [hlen]
      exact Nat.mod_eq_of_lt (by omega)
    exact ⟨b0, b1, b4, b5, h0, h1, hid, h2, h3, h4, h5, by omega, nofun, fun _ => ⟨h7, txlen⟩⟩

end Sys2Proof.Machine
end

section
/-!
PROOFS. Function codes met inside VALIDATE (30_encoding.md R84): byte 7 runs as the instruction it decodes to, and an
instruction that runs on a function code ends as the dispatch on that code does.
-/
namespace Sys2Proof.Machine

/-! ### The function code of an instruction -/

/-- Instruction i is the run of VALIDATE on a frame whose byte 7 is fc. -/
def RunsOn (i : Instr) (fc : Byte) (s : State) : Prop := exec i s = commit .validate s (validateBody (.ok fc) s)

/-- What byte fc decodes to on the wire is the run of VALIDATE on fc. -/
theorem runsOn_decodeFunctionCode (fc : Byte) (s : State) : RunsOn (decodeFunctionCode fc) fc s := by
  cases h : namedFunctionCode fc with
  | false =>
    rw [decodeFunctionCode_of_not_named h]
    rfl
  | true => rcases namedFunctionCode_cases h with rfl | rfl | rfl | rfl <;> rfl

theorem exec_of_commit_ok {i c : Instr} {s t : State} {body : Except Place State} (he : exec i s = commit c s body)
    (h : body = .ok t) : exec i s = .next t := by
  rw [he, h, commit_ok]

/-! ### How a function code ends -/

/-- The expected function code ends with success, when steps 4 to 6 pass (R143, R148). -/
theorem RunsOn.succeeds {i : Instr} {s : State} (h : RunsOn i s.efc.value s) (hv : ValidArguments s)
    (hn : 9 ≤ s.rxlen.value.toNat) (hp : PassesLengthAndSize s) (hm : TransactionMatches s) :
    SucceedsWithSlice i s := by
  obtain ⟨off, len, hslice, hcheck⟩ := checkLength_of_passes hn hp
  have body : validateBody (.ok s.efc.value) s = .ok (acceptFrame off len s) := by
    rw [validateBody_of_functionCode hv hn, dispatchFunctionCode_expected, hcheck, checkTransaction_of_matches hm]
  exact succeedsWithSlice_of_exec hslice (exec_of_commit_ok h body)

/-- The exception of the expected function code ends with DEVICE_EXCEPTION and byte 8 (R143). -/
theorem RunsOn.reports {i : Instr} {s : State} {code : Byte} (h : RunsOn i (exceptionFunctionCode s.efc.value) s)
    (hv : ValidArguments s) (hn : 9 ≤ s.rxlen.value.toNat) (h8 : Received s 8 code) :
    ValidateEndsWith i s 0x27#8 code 0#16 0#16 s.desync := by
  have body : validateBody (.ok (exceptionFunctionCode s.efc.value)) s = .ok (reportException code s) := by
    rw [validateBody_of_functionCode hv hn, dispatchFunctionCode_exception hv.exceptionFunctionCode_ne h8]
  exact validateEndsWith_of_exec (c := .deviceException) (exec_of_commit_ok h body)

/-- Any other function code ends with UNEXPECTED_FUNCTION_CODE (R144). -/
theorem RunsOn.unexpected {i : Instr} {s : State} {fc : Byte} (h : RunsOn i fc s) (hv : ValidArguments s)
    (hn : 9 ≤ s.rxlen.value.toNat) (hne : fc ≠ s.efc.value) (hne' : fc ≠ exceptionFunctionCode s.efc.value) :
    FailsFatally i s 0x63#8 := by
  have body : validateBody (.ok fc) s = .ok (failValidate .unexpectedFunctionCode s) := by
    rw [validateBody_of_functionCode hv hn, dispatchFunctionCode_unexpected hne hne']
  exact validateEndsWith_of_exec (c := .unexpectedFunctionCode) (exec_of_commit_ok h body)

/-! ### The rules -/

/-- Settles O38: both are the run of VALIDATE on that byte. -/
theorem validateRunsTheWireFunctionCode : Obligations.ValidateRunsTheWireFunctionCode := fun s b h7 =>
  (exec_validate_of_received h7).trans (runsOn_decodeFunctionCode b s).symm

/-- Settles O39: 0x03 and 0x10 are each expected under their own EFC, and under the other one neither expected nor its
exception. -/
theorem normalFunctionCodes : Obligations.NormalFunctionCodes := by
  intro s hv hn
  have read : RunsOn .fcReadMultipleRegisters 0x03#8 s := rfl
  have write : RunsOn .fcWriteMultipleRegisters 0x10#8 s := rfl
  refine ⟨fun hefc => ?_, fun hefc => ?_, fun hefc => ?_, fun hefc => ?_⟩
  · exact RunsOn.succeeds (hefc ▸ read) hv hn
  · exact RunsOn.succeeds (hefc ▸ write) hv hn
  · exact read.unexpected hv hn (by simp [hefc]) (by simp [hefc, exceptionFunctionCode])
  · exact write.unexpected hv hn (by simp [hefc]) (by simp [hefc, exceptionFunctionCode])

/-- Settles O40: 0x83 and 0x90 are each the exception of one EFC, and under the other one neither that nor expected. -/
theorem exceptionFunctionCodes : Obligations.ExceptionFunctionCodes := by
  intro s code hv hn
  have read : RunsOn .fcExceptionRead (exceptionFunctionCode 0x03#8) s := rfl
  have write : RunsOn .fcExceptionWrite (exceptionFunctionCode 0x10#8) s := rfl
  refine ⟨fun hefc => ?_, fun hefc => ?_, fun hefc => ?_, fun hefc => ?_⟩
  · exact RunsOn.reports (hefc ▸ read) hv hn
  · exact RunsOn.reports (hefc ▸ write) hv hn
  · exact read.unexpected hv hn (by simp [hefc, exceptionFunctionCode]) (by simp [hefc, exceptionFunctionCode])
  · exact write.unexpected hv hn (by simp [hefc, exceptionFunctionCode]) (by simp [hefc, exceptionFunctionCode])

/-- Settles O41: a byte that is none of the four named is neither EFC nor its exception, whichever EFC is. -/
theorem otherFunctionCodes : Obligations.OtherFunctionCodes := by
  intro s code hwf hv hn
  have other : RunsOn (.fcOther code) code s := rfl
  have unnamed : namedFunctionCode code = false := by simpa [Instr.wf] using hwf
  simp only [namedFunctionCode, Bool.or_eq_false_iff, beq_eq_false_iff_ne] at unnamed
  obtain ⟨⟨⟨h03, h10⟩, h83⟩, h90⟩ := unnamed
  have ⟨_, _, hefc, _⟩ := hv
  rcases hefc with hefc | hefc
  · exact other.unexpected hv hn (hefc ▸ h03) (hefc ▸ h83)
  · exact other.unexpected hv hn (hefc ▸ h10) (hefc ▸ h90)

end Sys2Proof.Machine
end

section
/-!
PROOFS. The faults of VALIDATE in the order of its reads (60_exceptions.md section 2), that written operands raise none
(70_reset_and_hazards.md R212), and the laws of its outcomes (42_frame_validate.md section 3).
-/
namespace Sys2Proof.Machine

/-! ### The STATUS bytes of steps 1 and 3 (R182) -/

@[simp] theorem statusByte_frameTruncated : statusByte .frameTruncated = 0x62#8 := rfl
@[simp] theorem statusByte_unexpectedFunctionCode : statusByte .unexpectedFunctionCode = 0x63#8 := rfl

/-! ### Reads of RXB that stop -/

theorem readByte_rxb_of_none {s : State} {a : Nat} (h : Memory.read s.rxb a = none) :
    readByte .rxb a s = .error (.byte .rxb a) :=
  readByte_of_unwritten h

theorem readHalf_rxb_of_none_first {s : State} {a : Nat} (h : Memory.read s.rxb a = none) :
    readHalf .rxb a s = .error (.byte .rxb a) := by
  rw [readHalf, readByte_rxb_of_none h, except_error_bind]

theorem readHalf_rxb_of_none_second {s : State} {a : Nat} {b : Byte} (h : Received s a b)
    (h' : Memory.read s.rxb (a + 1) = none) : readHalf .rxb a s = .error (.byte .rxb (a + 1)) := by
  rw [readHalf, readByte_of_received h, readByte_rxb_of_none h', except_ok_bind, except_error_bind]

/-! ### Bodies that do not stop -/

/-- A body goes on past a read that gives a value. -/
theorem exists_ok_bind {α β : Type} {r : Except Place α} {f : α → Except Place β} (hr : ∃ v, r = .ok v)
    (hf : ∀ v, ∃ t, f v = .ok t) : ∃ t, (r >>= f) = .ok t := by
  obtain ⟨v, rfl⟩ := hr
  exact hf v

theorem exists_ok_ite {α : Type} {p : Prop} [Decidable p] {x y : Except Place α} (hx : ∃ t, x = .ok t)
    (hy : ∃ t, y = .ok t) : ∃ t, (if p then x else y) = .ok t := by
  split
  · exact hx
  · exact hy

theorem ValidateBytesWritten.readByte_ok {s : State} (h : ValidateBytesWritten s) {a : Nat}
    (ha : a ∈ [0, 1, 4, 5, 7, 8]) : ∃ v, readByte .rxb a s = .ok v := by
  obtain ⟨v, hv⟩ := Option.isSome_iff_exists.mp (h a ha)
  exact ⟨v, readByte_of_received hv⟩

theorem ValidateBytesWritten.readHalf_ok {s : State} (h : ValidateBytesWritten s) {a : Nat}
    (ha : a ∈ [0, 1, 4, 5, 7, 8]) (ha' : a + 1 ∈ [0, 1, 4, 5, 7, 8]) : ∃ v, readHalf .rxb a s = .ok v :=
  exists_ok_bind (h.readByte_ok ha) fun _ => exists_ok_bind (h.readByte_ok ha') fun _ => ⟨_, rfl⟩

/-- What VALIDATE reads from step 2 on has been written: six bytes of RXB, and TIDIN where it is checked (R151). -/
def ResponseWritten (s : State) : Prop :=
  ValidateBytesWritten s ∧ (tidchk s.ctrl = true → s.tidin.written = true)

theorem ResponseWritten.transaction_ok {s : State} (h : ResponseWritten s) (off len : Half) :
    ∃ t, checkTransaction off len s = .ok t := by
  obtain ⟨hbytes, htid⟩ := h
  unfold checkTransaction
  split
  · next hchk =>
    exact exists_ok_bind ⟨_, readReg_of_written (htid hchk)⟩ fun _ =>
      exists_ok_bind (hbytes.readHalf_ok (by decide) (by decide)) fun _ => exists_ok_ite ⟨_, rfl⟩ ⟨_, rfl⟩
  · exact ⟨_, rfl⟩

theorem ResponseWritten.length_ok {s : State} (h : ResponseWritten s) (efc : Byte) (n : Half) :
    ∃ t, checkLength efc n s = .ok t := by
  have size : ∃ t, checkReadSize n s = .ok t := exists_ok_bind (h.1.readByte_ok (by decide)) fun _ =>
    exists_ok_ite (h.transaction_ok _ _) ⟨_, rfl⟩
  exact exists_ok_bind (h.1.readHalf_ok (by decide) (by decide)) fun _ =>
    exists_ok_ite ⟨_, rfl⟩ (exists_ok_ite size (h.transaction_ok _ _))

theorem ResponseWritten.dispatch_ok {s : State} (h : ResponseWritten s) (efc : Byte) (n : Half) (fc : Byte) :
    ∃ t, dispatchFunctionCode efc n fc s = .ok t :=
  exists_ok_ite (h.length_ok efc n) (exists_ok_ite (exists_ok_bind (h.1.readByte_ok (by decide)) fun _ => ⟨_, rfl⟩)
    ⟨_, rfl⟩)

/-- With its operands written, VALIDATE stops nowhere. -/
theorem ResponseWritten.validate_ok {s : State} (h : ResponseWritten s) (he : s.efc.written = true)
    (hr : s.rxlen.written = true) : ∃ t, validateBody (readByte .rxb 7 s) s = .ok t :=
  exists_ok_bind ⟨_, readReg_of_written he⟩ fun efc => exists_ok_bind ⟨_, readReg_of_written hr⟩ fun n =>
    exists_ok_ite ⟨_, rfl⟩ (exists_ok_ite ⟨_, rfl⟩ (exists_ok_ite ⟨_, rfl⟩
      (exists_ok_bind (h.1.readByte_ok (by decide)) fun fc => h.dispatch_ok efc n fc)))

/-! ### Instructions that end with a status -/

/-- Instruction i ends with a status that WCFE can produce, and no new mark. -/
def Completes (i : Instr) (s : State) : Prop :=
  ∃ t, exec i s = .next t ∧ t.faulted = s.faulted ∧ t.status ∈ possibleStatus

theorem completes_of_finish {i : Instr} {c : StatusCode} {s u : State} (h : exec i s = .next (finish c u))
    (hu : u.faulted = s.faulted) (hc : c ≠ .transportError) : Completes i s :=
  ⟨_, h, hu, statusByte_mem_possibleStatus hc⟩

theorem completes_buildrd {s : State} (hw : RequestOperandsWritten s) : Completes .buildrd s := by
  rcases Nat.lt_or_ge 127 s.count.value.toNat with hc | hc
  · have he := exec_of_body_ok (i := .buildrd) rfl (buildReadBody_of_count_gt hw hc)
    exact completes_of_finish (c := .encodingError) he rfl (by decide)
  · exact completes_of_finish (c := .ok) (exec_of_body_ok rfl (buildReadBody_of_count_le hw hc)) rfl (by decide)

theorem completes_buildwr {s : State} (hw : RequestOperandsWritten s) (hd : WriteDataWritten s) :
    Completes .buildwr s := by
  rcases Nat.lt_or_ge 127 s.count.value.toNat with hc | hc
  · have he := exec_of_body_ok (i := .buildwr) rfl (buildWriteBody_of_count_gt hw hc)
    exact completes_of_finish (c := .encodingError) he rfl (by decide)
  · obtain ⟨data, hread, -⟩ := readBytes_zero_of_written (b := .wdb) hd
    have body := buildWriteBody_of_count_le hw hc
    rw [hread, except_ok_bind] at body
    exact completes_of_finish (c := .ok) (exec_of_body_ok rfl body) rfl (by decide)

/-- A run of VALIDATE, or of a function code in it, that does not fault leaves a status. -/
theorem validateBody_completes {byte7 : Except Place Byte} {s t : State} (h : validateBody byte7 s = .ok t) :
    t.faulted = s.faulted ∧ t.status ∈ possibleStatus := by
  obtain ⟨-, -, ⟨hend, -⟩ | rfl⟩ := validateBody_end h
  · obtain ⟨c, hc⟩ := hend.finishedWith
    exact ⟨hc.faulted, hc.status ▸ statusByte_mem_possibleStatus hc.possible⟩
  · exact ⟨rfl, statusByte_mem_possibleStatus (c := .badArgument) (by decide)⟩

theorem completes_validate {s : State} (he : s.efc.written = true) (hr : s.rxlen.written = true)
    (h : ResponseWritten s) : Completes .validate s := by
  obtain ⟨t, hbody⟩ := h.validate_ok he hr
  exact ⟨t, exec_of_body_ok rfl hbody, validateBody_completes hbody⟩

/-! ### Past step 5 -/

/-- With TIDIN and bytes 0 and 1 written, either step 6 passes or the ids differ and are checked (R147). -/
theorem transaction_matches_or_differs {s : State} (hw : ValidateBytesWritten s) (htid : s.tidin.written = true) :
    TransactionMatches s ∨
      (tidchk s.ctrl = true ∧ ∃ b0 b1, Received s 0 b0 ∧ Received s 1 b1 ∧ b0 ++ b1 ≠ s.tidin.value) := by
  obtain ⟨b0, h0⟩ := Option.isSome_iff_exists.mp (hw 0 (by decide))
  obtain ⟨b1, h1⟩ := Option.isSome_iff_exists.mp (hw 1 (by decide))
  cases hchk : tidchk s.ctrl with
  | false => exact .inl (.inl hchk)
  | true =>
    by_cases hid : b0 ++ b1 = s.tidin.value
    · exact .inl (.inr ⟨htid, b0, b1, h0, h1, hid⟩)
    · exact .inr ⟨rfl, b0, b1, h0, h1, hid⟩

theorem TransactionMatches.not_differs {s : State} (h : TransactionMatches s) :
    ¬ (tidchk s.ctrl = true ∧ ∃ b0 b1, Received s 0 b0 ∧ Received s 1 b1 ∧ b0 ++ b1 ≠ s.tidin.value) := by
  rintro ⟨hchk, b0, b1, h0, h1, hne⟩
  rcases h with hchk' | ⟨-, b0', b1', h0', h1', hid⟩
  · simp [hchk] at hchk'
  · rw [h0.unique h0', h1.unique h1'] at hne
    exact hne hid

/-- VALIDATE with a function code received ends with DEVICE_EXCEPTION exactly if that is the exception of EFC. -/
theorem status_eq_deviceException_iff {s t : State} {fc : Byte} (hv : ValidArguments s)
    (hn : 9 ≤ s.rxlen.value.toNat) (h : validateBody (.ok fc) s = .ok t) :
    t.status = 0x27#8 ↔ fc = exceptionFunctionCode s.efc.value := by
  rw [validateBody_of_functionCode hv hn] at h
  by_cases hefc : fc = s.efc.value
  · subst hefc
    rw [dispatchFunctionCode_expected] at h
    have apart := hv.exceptionFunctionCode_ne.symm
    cases responseEnd_of_checkLength hn h <;> simp [apart]
  · by_cases hexc : fc = exceptionFunctionCode s.efc.value
    · subst hexc
      rcases readByte_cases .rxb 8 s with ⟨code, h8, -⟩ | ⟨-, e⟩
      · rw [dispatchFunctionCode_exception hefc h8] at h
        cases h
        exact iff_of_true rfl rfl
      · simp [dispatchFunctionCode, hefc, e] at h
    · rw [dispatchFunctionCode_unexpected hefc hexc] at h
      cases h
      exact iff_of_false (by simp) hexc

/-! ### The rules -/

/-- Settles O50: each command's body ends, with its operands written, in a finish. -/
theorem writtenOperandsNeverFault : Obligations.WrittenOperandsNeverFault := by
  rintro i s (⟨rfl | hi, hv⟩ | ⟨rfl, h0, h1⟩ | ⟨hi, h0, h1, h2, h3⟩ | ⟨rfl, hw⟩ | ⟨rfl, hw, hd⟩ |
    ⟨rfl, he, hr, hb, ht⟩ | rfl)
  · exact completes_of_finish (exec_enc16_of_written hv) rfl (by decide)
  · exact completes_of_finish (exec_enc32_of_written hi hv) rfl (by decide)
  · exact completes_of_finish (exec_dec16_of_written h0 h1) rfl (by decide)
  · exact completes_of_finish (exec_dec32_of_written hi h0 h1 h2 h3) rfl (by decide)
  · exact completes_buildrd hw
  · exact completes_buildwr hw hd
  · exact completes_validate he hr ⟨hb, ht⟩
  · exact completes_of_finish (c := .ok) (exec_tidnext s) rfl (by decide)

/-- Settles O37: each read is the first of its step, and the steps before it have passed. -/
theorem validateFaultsInOrder : Obligations.ValidateFaultsInOrder := by
  refine fun s => ⟨fun he => ?_, fun he hr => ?_, fun hv hn => ⟨fun h7 => ?_, fun h7 h8 => ?_, fun h7 h4 => ?_,
    fun b4 h7 h4 h5 => ?_, fun b4 b5 h7 h4 h5 hlen hefc h8 => ?_⟩, fun hp hchk => ?_⟩
  · exact faultsOn_of_body_error rfl (by simp [validateBody, he])
  · exact faultsOn_of_body_error rfl (by simp [validateBody, he, hr])
  · obtain ⟨he, hr, hefc, hcap⟩ := hv
    exact faultsOn_of_body_error rfl
      (by rw [validateBody_of_valid he hr hefc hcap hn, readByte_rxb_of_none h7, except_error_bind])
  · exact faultsOn_of_body_error (exec_validate_of_received h7)
      (by rw [validateBody_of_functionCode hv hn, dispatchFunctionCode, if_neg hv.exceptionFunctionCode_ne, if_pos rfl,
        readByte_rxb_of_none h8, except_error_bind])
  · exact faultsOn_of_body_error (exec_validate_of_expected hv hn h7)
      (by rw [checkLength, readHalf_rxb_of_none_first h4, except_error_bind])
  · exact faultsOn_of_body_error (exec_validate_of_expected hv hn h7)
      (by rw [checkLength, readHalf_rxb_of_none_second h4 h5, except_error_bind])
  · exact faultsOn_of_body_error (exec_validate_of_expected hv hn h7)
      (by rw [checkLength_of_le h4 h5 hlen, if_pos hefc, checkReadSize, readByte_rxb_of_none h8, except_error_bind])
  · obtain ⟨off, len, -, he⟩ := exec_validate_of_passes hp
    refine ⟨fun htid => ?_, fun htid h0 => ?_, fun b0 htid h0 h1 => ?_⟩ <;>
      refine faultsOn_of_body_error he ?_ <;> rw [checkTransaction, if_pos hchk]
    · rw [readReg_of_unwritten htid, except_error_bind]
    · rw [readReg_of_written htid, readHalf_rxb_of_none_first h0, except_ok_bind, except_error_bind]
    · rw [readReg_of_written htid, readHalf_rxb_of_none_second h0 h1, except_ok_bind, except_error_bind]

/-- Settles O36: byte 7 decides the exception, EXCODE is O34's, and step 6 decides past step 5. -/
theorem validateLaws : Obligations.ValidateLaws := by
  intro s hs hv hw htid
  have ⟨he, hr, _⟩ := hv
  obtain ⟨t, hbody⟩ := ResponseWritten.validate_ok ⟨hw, fun _ => htid⟩ he hr
  have hexec : exec .validate s = .next t := exec_of_body_ok rfl hbody
  have ht : t.faulted = none := (validateBody_completes hbody).1.trans hs
  obtain ⟨-, -, -, hexcode, -⟩ := validateResultRegisters s t hs hexec
  refine ⟨t, hexec, ht, ?_, fun hstatus => (hexcode ht hstatus).1, fun hp => ?_⟩
  · rcases Nat.lt_or_ge s.rxlen.value.toNat 9 with hn | hn
    · rw [validateBody_of_truncated hv hn] at hbody
      cases hbody
      exact iff_of_false (by simp) (fun h => by omega)
    · obtain ⟨fc, h7⟩ := Option.isSome_iff_exists.mp (hw 7 (by decide))
      rw [readByte_of_received h7] at hbody
      rw [status_eq_deviceException_iff hv hn hbody]
      exact ⟨by rintro rfl; exact ⟨hn, h7⟩, fun h => Received.unique h7 h.2⟩
  · obtain ⟨off, len, -, he⟩ := exec_validate_of_passes hp
    rcases transaction_matches_or_differs hw htid with hm | ⟨hchk, b0, b1, h0, h1, hne⟩
    · cases hexec.symm.trans (exec_of_body_ok he (checkTransaction_of_matches hm))
      exact ⟨iff_of_false (by simp) hm.not_differs, fun _ => rfl⟩
    · cases hexec.symm.trans (exec_of_body_ok he (checkTransaction_of_ne hchk htid h0 h1 hne))
      exact ⟨iff_of_true rfl ⟨hchk, b0, b1, h0, h1, hne⟩, fun h => absurd rfl h⟩

end Sys2Proof.Machine
end

section
/-!
PROOFS. One exchange (70_reset_and_hazards.md R213): the actions of steps 1 to 3 up to a rejected build, what is sent
after an accepted one, and how the exchange ends.
-/
namespace Sys2Proof.Machine

/-! ### Reads in the middle of an exchange -/

/-- s with another record of the host's last read: all that a host read changes (R58). -/
def withLastRead (x : Option Word) (s : State) : State := { s with lastRead := x }

@[simp] theorem bufferOf_withLastRead (b : Buffer) (x : Option Word) (s : State) :
    bufferOf b (withLastRead x s) = bufferOf b s := by
  cases b <;> rfl

/-- A register read goes on to what is left to do. -/
theorem afterActions_rd_cons (r : RegName) (rest : List HostAction) {s : State} (hf : s.faulted = none) :
    ∃ x, ∀ k, afterActions (rd r :: rest) s k = afterActions rest (withLastRead x s) k := by
  obtain ⟨x, hx⟩ := makeActions_rd r rest hf
  exact ⟨some x, fun k => by rw [afterActions, hx, afterActions, withLastRead]⟩

theorem afterActions_rd (r : RegName) {s : State} (hf : s.faulted = none) :
    ∃ x, ∀ k, afterActions [rd r] s k = k (withLastRead x s) := by
  obtain ⟨x, hx⟩ := makeActions_rd r [] hf
  exact ⟨some x, fun k => afterActions_of_next hx hf⟩

/-- Reads of written bytes go on, with those bytes in the host's hands. -/
theorem afterActions_rdbFrom {b : Buffer} {a n : Nat} {s : State} {bytes : List Byte} (hf : s.faulted = none)
    (hcap : a + n ≤ b.capacity s.params) (hlen : bytes.length = n)
    (hbytes : ∀ i, i < n → Memory.read (bufferOf b s) (a + i) = bytes[i]?) :
    ∃ x, (∀ k, afterActions (rdbFrom b a n) s k = k (withLastRead x s)) ∧
      hostBytes b a n (withLastRead x s) = bytes := by
  obtain ⟨x, hx⟩ := makeActions_rdbFrom b a n hf hcap
  exact ⟨x, fun k => afterActions_of_next hx hf, hostBytes_of_written hlen (by simpa using hbytes)⟩

/-! ### Steps 1 and 2 with a count that is rejected -/

/-- From s to t an exchange has come without a fault, TXB and RXB being as they were. -/
structure KeepsFrames (s t : State) : Prop where
  faulted : t.faulted = s.faulted
  txb : t.txb = s.txb
  rxb : t.rxb = s.rxb

/-- A value carried in 32 bits fits the width it has. -/
theorem toNat_setWidth_32_lt {w : Nat} (v : BitVec w) : (v.setWidth 32 : Word).toNat < 2 ^ w := by
  rw [BitVec.toNat_setWidth]
  exact Nat.lt_of_le_of_lt (Nat.mod_le _ _) v.isLt

/-- Step 1 leaves an id in TIDIN, of either source. -/
theorem makeActions_idActions (id : IdSource) (rest : List HostAction) {s : State} (hf : s.faulted = none) :
    ∃ t, makeActions (idActions id ++ rest) s = makeActions rest t ∧ t.tidin.written = true ∧ KeepsFrames s t := by
  cases id with
  | counter =>
    exact ⟨nextTransactionId s, makeActions_command rest hf rfl rfl fun _ => rfl, rfl, rfl, rfl, rfl⟩
  | given tid =>
    exact ⟨writeOperandReg .tidin (tid.setWidth 32) s,
      makeActions_wr rest hf rfl (by decide) (toNat_setWidth_32_lt tid), rfl, rfl, rfl, rfl⟩

/-- The writes of UNIT, START and COUNT leave the three registers written. -/
theorem makeActions_requestOperandWrites (u : Byte) (a : Half) (c : Byte) (rest : List HostAction) {s : State}
    (hf : s.faulted = none) :
    makeActions (requestOperandWrites u a c ++ rest) s =
      makeActions rest { s with unit := OperandReg.of u, start := OperandReg.of a, count := OperandReg.of c } := by
  let unitWritten := writeOperandReg .unit (u.setWidth 32) s
  let startWritten := writeOperandReg .start (a.setWidth 32) unitWritten
  calc makeActions (wr .unit (u.setWidth 32) :: wr .start (a.setWidth 32) :: wr .count (c.setWidth 32) :: rest) s
    _ = makeActions (wr .start (a.setWidth 32) :: wr .count (c.setWidth 32) :: rest) unitWritten :=
      makeActions_wr _ hf rfl (by decide) (toNat_setWidth_32_lt u)
    _ = makeActions (wr .count (c.setWidth 32) :: rest) startWritten :=
      makeActions_wr _ hf rfl (by decide) (toNat_setWidth_32_lt a)
    _ = makeActions rest (writeOperandReg .count (c.setWidth 32) startWritten) :=
      makeActions_wr _ hf rfl (by decide) (toNat_setWidth_32_lt c)
    _ = makeActions rest { s with unit := OperandReg.of u, start := OperandReg.of a, count := OperandReg.of c } := by
      simp [unitWritten, startWritten, writeOperandReg]

/-- A build with its operands written and COUNT above 127 is rejected, whatever WDB holds (R121). -/
theorem makeActions_buildActions_rejected (kind : RequestKind) (rest : List HostAction) {s : State}
    (hf : s.faulted = none) (hw : RequestOperandsWritten s) (hc : 127 < s.count.value.toNat)
    (hd : ∀ data, kind = .write data → data.length ≤ 254) :
    ∃ t, makeActions (buildActions kind ++ rest) s = makeActions rest t ∧ t.status = 0x31#8 ∧ t.txlen = 0#16 ∧
      KeepsFrames s t := by
  cases kind with
  | read =>
    refine ⟨rejectCount s, makeActions_command rest hf rfl rfl fun q => ?_, rfl, rfl, rfl, rfl, rfl⟩
    exact exec_of_body_ok rfl (buildReadBody_of_count_gt (s := takeAction q s) hw hc)
  | write data =>
    have room : 0 + data.length ≤ Config.wdbCapacity := by simpa [Config.wdbCapacity] using hd data rfl
    have stored := makeActions_wrb_wdb data 0 (commandLine .buildwr :: rest) hf room
    simp only [buildActions, List.append_assoc, List.cons_append, List.nil_append]
    rw [stored]
    refine ⟨rejectCount { s with wdb := Memory.writeBytes s.wdb 0 data },
      makeActions_command rest hf rfl rfl fun q => ?_, rfl, rfl, rfl, rfl, rfl⟩
    exact exec_of_body_ok rfl (buildWriteBody_of_count_gt (s := takeAction q _) hw hc)

/-- Steps 1 and 2 of an exchange with COUNT above 127, and the read of STATUS. -/
theorem makeActions_exchangeRequest_rejected (r : ExchangeRequest) {s : State} (hf : s.faulted = none)
    (hc : 127 < r.count.toNat) (hd : ∀ data, r.kind = .write data → data.length ≤ 254) :
    ∃ t, makeActions (exchangeRequest r) s = .next t ∧ t.status = 0x31#8 ∧ t.txlen = 0#16 ∧ KeepsFrames s t := by
  simp only [exchangeRequest, List.append_assoc]
  obtain ⟨t, ht, htid, hkeep⟩ := makeActions_idActions r.id
    (requestOperandWrites r.unit r.start r.count ++ (buildActions r.kind ++ [rd .status])) hf
  have hft : t.faulted = none := hkeep.faulted.trans hf
  rw [ht, makeActions_requestOperandWrites _ _ _ _ hft]
  obtain ⟨u, hu, hstatus, htxlen, hkeep'⟩ := makeActions_buildActions_rejected r.kind [rd .status] (s := { t with
    unit := OperandReg.of r.unit, start := OperandReg.of r.start, count := OperandReg.of r.count }) hft
    ⟨htid, rfl, rfl, rfl⟩ hc hd
  obtain ⟨x, hx⟩ := makeActions_rd .status [] (hkeep'.faulted.trans hft)
  exact ⟨_, hu.trans hx, hstatus, htxlen, hkeep'.faulted.trans hkeep.faulted, hkeep'.txb.trans hkeep.txb,
    hkeep'.rxb.trans hkeep.rxb⟩

/-! ### The rules -/

/-- Settles O55: the build is rejected before anything is sent. -/
theorem rejectedExchangeSendsNothing : Obligations.RejectedExchangeSendsNothing := by
  intro r transport s hf hc hd
  obtain ⟨t, ht, hstatus, htxlen, hkeep⟩ := makeActions_exchangeRequest_rejected r hf hc hd
  have stop : sendRequest (expectedFunctionCode r.kind) transport t = .next (t, .notSent 0x31#8) := by
    rw [sendRequest, hstatus]
    exact if_neg (by decide)
  refine ⟨t, ?_, htxlen, fun a => ?_, fun a => ?_⟩
  · rw [exchange, afterActions_of_next ht (hkeep.faulted.trans hf), stop]
  · exact congrArg (Memory.read · a) hkeep.txb
  · exact congrArg (Memory.read · a) hkeep.rxb

/-- Settles O56: the reads of TXLEN and of TXB leave WCFE as it was, and hand over what has been written. -/
theorem exchangeSendsWhatWasBuilt : Obligations.ExchangeSendsWhatWasBuilt := by
  refine fun f transport s hf => ⟨fun hok => if_neg hok, fun sent hok hcap hlen hsent => ?_⟩
  obtain ⟨x, hx⟩ := afterActions_rd .txlen hf
  obtain ⟨y, hy, hbytes⟩ := afterActions_rdbFrom (b := .txb) (a := 0) (s := withLastRead x s) hf
    (by rwa [Nat.zero_add]) hlen fun i hi => by rw [Nat.zero_add]; exact hsent i hi
  refine ⟨y, ?_⟩
  rw [sendRequest, if_pos hok, hx]
  exact (hy _).trans (congrArg (fun bytes => continueAfterTransport f (transport bytes) _) hbytes)

/-- Settles O57: STATUS decides the end, and the reads for it leave WCFE as it was. -/
theorem exchangeEndsByStatus : Obligations.ExchangeEndsByStatus := by
  refine fun s hf => ⟨fun bytes hok hcap hlen hbytes => ?_, fun hexc => ?_, fun hok hexc =>
    ⟨fun hfatal => ?_, fun hfatal => ?_⟩⟩
  · obtain ⟨x, hx⟩ := afterActions_rd_cons .payoff [rd .paylen] hf
    obtain ⟨y, hy⟩ := afterActions_rd .paylen (s := withLastRead x s) hf
    obtain ⟨z, hz, hpayload⟩ := afterActions_rdbFrom (b := .rxb) (s := withLastRead y s) hf hcap hlen
      hbytes
    refine ⟨z, ?_⟩
    rw [finishExchange, if_pos hok, hx, hy]
    exact (hz _).trans (congrArg (fun bytes => Host.Outcome.next (_, ExchangeResult.payload bytes)) hpayload)
  · have hok : statusCodeField s.status ≠ codeOf .ok := by rw [hexc]; decide
    obtain ⟨x, hx⟩ := afterActions_rd .excode hf
    exact ⟨x, by rw [finishExchange, if_neg hok, if_pos hexc, hx]; rfl⟩
  · rw [finishExchange, if_neg hok, if_neg hexc, if_pos hfatal]
  · rw [finishExchange, if_neg hok, if_neg hexc, if_neg (by simp [hfatal])]

end Sys2Proof.Machine
end
